-- ==== Sys2Proof/Word.lean ====
section
/-! DEFINITION. The widths of the HX711 protocol controller: the command word, the gain code, the raw sample,
and the W-bit value of the response port. -/

namespace Sys2Proof

/-- A command word, format `CMD8` (30_encoding R70). -/
abbrev Word := BitVec 8

/-- A 2-bit gain code: its value is the number of mode pulses of the mode, and 0 names no mode (10_state R24). -/
abbrev GainCode := BitVec 2

/-- A raw 24-bit sample, the width of the shift-in accumulator (00_scope R6, `ACC_WIDTH`). -/
abbrev Raw := BitVec 24

/-- A value of the W-bit response port. W is an instantiation parameter (00_scope R6), so the value carries
its width; in every reachable state that width is the `w` of the parameters. -/
structure PortVal where
  width : Nat
  bits  : BitVec width
  deriving DecidableEq, Repr

end Sys2Proof
end

