-- ==== Sys2Proof/Config.lean ====
section
/-! DEFINITION. What an instantiation of the controller fixes (00_scope R6) and the free values: the draws of the
capability and of the data line (40_sequencer R103), and the OPEN parameters, none of which has a value here. -/

namespace Sys2Proof

/-- The two lines between the controller and the chip (00_scope R2, 20_memory R51). -/
inductive Line where
  | data
  | clock
  deriving DecidableEq, Repr

/-- The direction a line is configured in (40_sequencer R100). -/
inductive Dir where
  | input
  | output
  deriving DecidableEq, Repr

/-- What `draw_cap()` gives: the capability performs the call, or fails (40_sequencer R103). -/
inductive CapResult where
  | ok
  | err
  deriving DecidableEq, Repr, Inhabited

/-- What `draw_data()` gives: the level read on `data`, or a failure of the capability (40_sequencer R103). -/
inductive DataResult where
  | bit (b : Bool)
  | err
  deriving DecidableEq, Repr, Inhabited

/-- The instantiation parameters a functional rule reads, and `T_SETTLE` (00_scope R6).
They are fixed when the controller is instantiated and no command writes them (10_state R34). -/
structure Params where
  /-- `W`, the width of the sign-extended result. -/
  w : Nat
  /-- `SAT_RETRY`, the saturation-retry guard. -/
  satRetry : Bool
  /-- `SAT_SENTINEL`, the raw pattern that triggers a retry. -/
  satSentinel : Raw
  /-- `READY_POLL_LIMIT`: `none` is NONE. -/
  readyPollLimit : Option Nat
  /-- `T_SETTLE` in nanoseconds; no rule of the untimed model depends on it (70_reset_and_hazards R246). -/
  tSettle : Nat
  deriving DecidableEq, Repr

namespace Config

/-- The values 00_scope R6 gives as defaults. -/
def defaults : Params :=
  { w := 32, satRetry := false, satSentinel := 0xFFFFFF#24, readyPollLimit := none, tSettle := 0 }

/-- The ranges 00_scope R6 gives: W is at least 24, and a poll limit is at least 1. -/
abbrev legal (p : Params) : Prop :=
  24 ≤ p.w ∧ p.readyPollLimit ≠ some 0

/-- `T_PD` in nanoseconds: the clock-high time at which the chip powers down, 60 microseconds (00_scope R6). -/
def tPd : Nat := 60000

/-- FREE VALUE: the outcome of the capability call number `k` that no listed draw answers (40_sequencer R103).
It has no body: any sequence of outcomes is possible. Log entry 2. -/
opaque freeCap : Nat → CapResult

/-- FREE VALUE: the outcome of the `LineRead` number `k` that no listed draw answers (40_sequencer R103). Log entry 2. -/
opaque freeData : Nat → DataResult

/-- OPEN: `T_HIGH`, clock high time per pulse in nanoseconds, settle excluded (00_scope R6). Log entry 4. -/
opaque tHigh : Nat

/-- OPEN: `T_LOW`, clock low time per pulse in nanoseconds, settle excluded (00_scope R6). Log entry 4. -/
opaque tLow : Nat

/-- OPEN: `t_read`, the time of one `LineRead` in nanoseconds (70_reset_and_hazards R240). Log entry 4. -/
opaque tRead : Nat

/-- OPEN: `DATA_PIN` and `CLOCK_PIN`, which capability pin each line is (00_scope R6, 20_memory R51). Log entry 4. -/
opaque pin : Line → Nat

end Config

end Sys2Proof
end

