-- ==== Sys2Proof/Syntax.lean ====
section
/-! DEFINITION. The instructions: the four commands of spec/opcode_table.json. -/

namespace Sys2Proof

/-- One constructor per row of spec/opcode_table.json (30_encoding R71). An operand `g` is the GAIN field w[3:2]
as it stands, unsigned and unscaled (30_encoding R72). -/
inductive Instr where
  /-- INIT: acquire the lines with initial gain `g` (41_session R131). -/
  | init (g : GainCode)
  /-- READ: one sample with the stored gain (42_read R151). -/
  | read
  /-- SET_GAIN: store gain `g` and perform the commit read (42_read R161). -/
  | setGain (g : GainCode)
  /-- RELEASE: tear the session down (41_session R139). -/
  | release
  deriving DecidableEq, Repr

end Sys2Proof
end

