-- ==== Sys2Proof/WellFormed.lean ====
section
/-! DEFINITION. Which terms of `Instr` are commands of the controller. -/

namespace Sys2Proof

/-- A gain operand is one of the three gain codes (10_state R24, 30_encoding R72: 0 is an invalid gain). -/
abbrev GainCode.WellFormed (g : GainCode) : Prop := g ≠ 0#2

/-- The constraint column of spec/opcode_table.json: `g ≠ 0` on INIT and SET_GAIN, none on READ and RELEASE. -/
def Instr.wellFormed : Instr → Bool
  | .init g => decide (GainCode.WellFormed g)
  | .read => true
  | .setGain g => decide (GainCode.WellFormed g)
  | .release => true

/-- An instruction the decoder can answer with. -/
abbrev Instr.WellFormed (i : Instr) : Prop := i.wellFormed = true

end Sys2Proof
end

