-- ==== Sys2Proof/Decode.lean ====
section
/-! DEFINITION. Decoding of command words (30_encoding R70 to R76), total on all 256 words, the encoder, and the
assembly syntax of 30_encoding R81. -/

namespace Sys2Proof

/-- Why a word is RESERVED (60_exceptions R203 lists the three causes). -/
inductive Reserved where
  /-- w[7:4] is not zero (30_encoding R73). -/
  | reservedBits
  /-- INIT or SET_GAIN with GAIN = 0, the source's "bad gain mode" (30_encoding R72). -/
  | missingGain
  /-- READ or RELEASE with GAIN ≠ 0 (30_encoding R74). -/
  | strayGain
  deriving DecidableEq, Repr

/-- What a word decodes to: `Cmd` of 30_encoding R74. -/
inductive Cmd where
  | instr (i : Instr)
  | reserved (why : Reserved)
  deriving DecidableEq, Repr

/-- w[7:4]. -/
def Word.rsv (w : Word) : BitVec 4 := w.extractLsb' 4 4

/-- w[3:2], the GAIN field. -/
def Word.gain (w : Word) : GainCode := w.extractLsb' 2 2

/-- w[1:0], the OP field. -/
def Word.op (w : Word) : BitVec 2 := w.extractLsb' 0 2

/-- An operation that takes a gain: GAIN must not be 0 (30_encoding R74). -/
def withGain (g : GainCode) (i : GainCode → Instr) : Cmd :=
  if g = 0#2 then .reserved .missingGain else .instr (i g)

/-- An operation that takes none: GAIN must be 0 (30_encoding R74). -/
def withoutGain (g : GainCode) (i : Instr) : Cmd :=
  if g = 0#2 then .instr i else .reserved .strayGain

/-- The opcode map, w[1:0] (30_encoding R71, R74). -/
def decodeOp (op : BitVec 2) (g : GainCode) : Cmd :=
  if op = 0#2 then withGain g .init
  else if op = 1#2 then withoutGain g .read
  else if op = 2#2 then withGain g .setGain
  else withoutGain g .release

/-- `decode` of 30_encoding R74. It reads no state. -/
def decode (w : Word) : Cmd :=
  if w.rsv = 0#4 then decodeOp w.op w.gain else .reserved .reservedBits

/-- The instruction of a command, where it is one. -/
def Cmd.toInstr : Cmd → Option Instr
  | .instr i => some i
  | .reserved _ => none

/-- The word whose `nbits` low bits are those of `w` and whose other bits are 0: spec/opcode_table.json numbers the
bits of the one-byte command word as 30_encoding R70 does, bit 0 least significant. -/
def tableWord (nbits w : Nat) : Word := BitVec.ofNat 8 (w % 2 ^ nbits)

/-- The instruction the decoder reads from the table word `w`; none where the word is RESERVED. -/
def decodeTableWord (nbits w : Nat) : Option Instr := (decode (tableWord nbits w)).toInstr

/-- A command word from its fields, RSV = 0 (30_encoding R70). -/
def packWord (g : GainCode) (op : BitVec 2) : Word := 0#4 ++ g ++ op

/-- The word of an instruction, from the encoding column of spec/opcode_table.json. -/
def encode : Instr → Word
  | .init g => packWord g 0#2
  | .read => packWord 0#2 1#2
  | .setGain g => packWord g 2#2
  | .release => packWord 0#2 3#2

/-- The three modes of 10_state R24. -/
inductive GainMode where
  | a128
  | b32
  | a64
  deriving DecidableEq, Repr

/-- The input channel of a mode (10_state R24). -/
inductive Channel where
  | a
  | b
  deriving DecidableEq, Repr

/-- GainCode column of 10_state R24. -/
def GainMode.code : GainMode → GainCode
  | .a128 => 1#2
  | .b32 => 2#2
  | .a64 => 3#2

/-- Channel column of 10_state R24. -/
def GainMode.channel : GainMode → Channel
  | .a128 => .a
  | .b32 => .b
  | .a64 => .a

/-- Gain column of 10_state R24. -/
def GainMode.factor : GainMode → Nat
  | .a128 => 128
  | .b32 => 32
  | .a64 => 64

/-- The mode a gain code names; code 0 names none (10_state R24). -/
def GainMode.ofCode (g : GainCode) : Option GainMode :=
  if g = 1#2 then some .a128
  else if g = 2#2 then some .b32
  else if g = 3#2 then some .a64
  else none

/-- One line of command assembly (30_encoding R81); comments and blank lines carry no word. -/
inductive AsmLine where
  | init (m : GainMode)
  | read
  | setGain (m : GainMode)
  | release
  | word (n : Word)
  deriving DecidableEq, Repr

/-- The word a line of assembly emits (30_encoding R81); `.word` is the only way to write a RESERVED word. -/
def assemble : AsmLine → Word
  | .init m => encode (.init m.code)
  | .read => encode .read
  | .setGain m => encode (.setGain m.code)
  | .release => encode .release
  | .word n => n

end Sys2Proof
end

