-- ==== Sys2Proof/Machine/State.lean ====
section
/-! DEFINITION. The state of the controller (10_state R20), its reset value (70_reset_and_hazards R230), and the
reasons a step can stop. -/

namespace Sys2Proof.Machine

/-- Life state (10_state R21). -/
inductive Life where
  | uninit
  | ready
  | faulted
  deriving DecidableEq, Repr

/-- The mode the chip will apply to the conversion the next read cycle shifts out (10_state R28). -/
inductive ChipMode where
  | unknown
  | known (g : GainCode)
  deriving DecidableEq, Repr

/-- The level the controller last drove on `clock` (10_state R29). -/
inductive ClockLevel where
  | undriven
  | low
  | high
  | unknown
  deriving DecidableEq, Repr

/-- A point of the read cycle: it names the next line primitive (40_sequencer R120). -/
inductive CyclePoint where
  /-- `RW`: a ready poll, `LineRead(data)`. -/
  | rw
  /-- `DH(i)`: `LineWrite(clock, 1)` of data pulse `i`, 0 to 23. -/
  | dh (i : Nat)
  /-- `DS(i)`: the sample of data pulse `i`, `LineRead(data)`. -/
  | ds (i : Nat)
  /-- `DL(i)`: `LineWrite(clock, 0)` of data pulse `i`. -/
  | dl (i : Nat)
  /-- `MH(j)`: `LineWrite(clock, 1)` of mode pulse `j`, 1 to extra(g). -/
  | mh (j : Nat)
  /-- `ML(j)`: `LineWrite(clock, 0)` of mode pulse `j`. -/
  | ml (j : Nat)
  deriving DecidableEq, Repr

/-- The point a command has reached (10_state R31): it names the next line primitive, and each primitive advances it. The
points of a read cycle are those of 40_sequencer R120, the others name the primitives of INIT and RELEASE (41_session R131,
R134, R138, R139), a release with the line it releases. At `start` the command has still to see which primitive is its first
(30_encoding R80). -/
inductive Point where
  /-- `start`: the command has been accepted and nothing of it has been done (30_encoding R80). -/
  | start
  /-- READ, SET_GAIN: inside the read cycle. -/
  | cyc (p : CyclePoint)
  /-- INIT, RELEASE: `LineRelease(l)` of the teardown the command begins with, once its first release has been made. -/
  | tear (l : Line)
  /-- INIT: `LineConfigure(data, IN)`, after a teardown. -/
  | cfgData
  /-- INIT: `LineConfigure(clock, OUT)`. -/
  | cfgClock
  /-- INIT: the initial `LineWrite(clock, 0)`. -/
  | driveLow
  /-- INIT: `LineRelease(l)` of the teardown at `fail`. -/
  | failTear (l : Line)
  deriving DecidableEq, Repr

/-- Sequencer position (10_state R31), the program-counter analogue. -/
inductive Seq where
  | idle
  | busy (cmd : Cmd) (point : Point)
  deriving DecidableEq, Repr

/-- A line event (10_state R36). -/
inductive Event where
  | cfg (l : Line) (d : Dir) (r : CapResult)
  /-- `Rd(data, b)` or `Rd(data, ERR)`. -/
  | rd (r : DataResult)
  /-- `Wr(clock, v, r)`. -/
  | wr (v : Bool) (r : CapResult)
  | rel (l : Line) (r : CapResult)
  deriving DecidableEq, Repr

/-- The status names of 60_exceptions R200; their 3-bit codes are `Status.code` (Machine/Flags.lean). -/
inductive Status where
  | ok
  | pinInitError
  | deviceFaulted
  | invalidArgument
  | timeout
  | notInitialized
  deriving DecidableEq, Repr

/-- A response: `(status, value)` (30_encoding R78, 10_state R37). -/
structure Response where
  status : Status
  value  : PortVal
  deriving DecidableEq, Repr

/-- The state record of 10_state R20, the response ports of 30_encoding R77, the parameters of the instantiation,
and the model's own fields for what comes from outside: commands waiting at the port, and draws. -/
structure State where
  /-- Instantiation parameters (00_scope R6); no step writes them (10_state R34). Log entry 1. -/
  params : Params
  /-- `s.life` (10_state R21). -/
  life : Life
  /-- `s.gain` (10_state R23). -/
  gain : GainCode
  /-- `s.acc` (10_state R26). -/
  acc : Raw
  /-- `s.result` (10_state R27). -/
  result : PortVal
  /-- `s.chip_mode`, shadow (10_state R28). -/
  chipMode : ChipMode
  /-- `s.clock_level` (10_state R29). -/
  clockLevel : ClockLevel
  /-- `s.data_owned` (10_state R30). -/
  dataOwned : Bool
  /-- `s.clock_owned` (10_state R30). -/
  clockOwned : Bool
  /-- `s.seq` (10_state R31). -/
  seq : Seq
  /-- `s.n`, clock pulses completed in the current read cycle (10_state R32). -/
  n : Nat
  /-- `s.polls`, ready polls that read 1 in the current ready-wait (10_state R32). -/
  polls : Nat
  /-- `s.trace`, shadow, oldest first (10_state R36). -/
  trace : List Event
  /-- `s.responses`, shadow, oldest first (10_state R37). -/
  responses : List Response
  /-- Port `rsp_valid` (30_encoding R77, R78). -/
  rspValid : Bool
  /-- Port `rsp_status` (30_encoding R77, R78). -/
  rspStatus : BitVec 3
  /-- Port `rsp_value` (30_encoding R77, R78). -/
  rspValue : PortVal
  /-- MODEL FIELD: the command words hosts hold at the port, in the order in which the schedule has them accepted;
  `cmd_valid` and `cmd_word` are read off it (30_encoding R77, R80; 60_exceptions R215). Log entry 3. -/
  pending : List Word
  /-- MODEL FIELD: outcomes of the capability calls to come (40_sequencer R103). Log entry 2. -/
  capDraws : List CapResult
  /-- MODEL FIELD: outcomes of the `LineRead`s to come (40_sequencer R103). Log entry 2. -/
  dataDraws : List DataResult
  /-- MODEL FIELD: index of the next free value, for a draw no list answers. Log entry 2. -/
  freeCount : Nat
  deriving DecidableEq, Repr

/-- Right after reset (70_reset_and_hazards R230; reset is the start of a run only, log entry 6), for the parameters `p`: every value is the spec's, but for the model's
own fields, where no command is presented and no draw is listed. -/
def State.resetWith (p : Params) : State :=
  { params := p
    life := .uninit
    gain := 1#2
    acc := 0#24
    result := ⟨p.w, 0#p.w⟩
    chipMode := .unknown
    clockLevel := .undriven
    dataOwned := false
    clockOwned := false
    seq := .idle
    n := 0
    polls := 0
    trace := []
    responses := []
    rspValid := false
    rspStatus := 0#3
    rspValue := ⟨p.w, 0#p.w⟩
    pending := []
    capDraws := []
    dataDraws := []
    freeCount := 0 }

/-- Right after reset, instantiated with the defaults of 00_scope R6. -/
def State.reset : State := State.resetWith Config.defaults

/-- The model stops with no fault: the controller has no trap and no stuck state (60_exceptions R200 to R209), errors
are status codes, the fault entry of 60_exceptions R204 is a next state, and a hang is an infinite run
(40_sequencer R121). No step raises one, and the type has no element. -/
inductive Fault where
  deriving DecidableEq, Repr

/-- Why a step gives no meaning. -/
inductive Refusal where
  /-- An arm of `exec` for an instruction without a meaning; safe. No arm uses it: all four commands are modelled. -/
  | notModelled (mnemonic : String)
  deriving DecidableEq, Repr

end Sys2Proof.Machine
end

