-- ==== Sys2Proof/Machine/Operands.lean ====
section
/-! DEFINITION. The gain operand and the two computations of the data path: shift-in and sign extension. -/

namespace Sys2Proof

/-- The value 0 of the response port. -/
def PortVal.zero (w : Nat) : PortVal := ⟨w, 0#w⟩

/-- The signed reading of a port value (00_scope R8). -/
def PortVal.signed (v : PortVal) : Int := v.bits.toInt

end Sys2Proof

namespace Sys2Proof.Machine

/-- `extra(g) = g`, the mode pulses of a gain code (10_state R24). -/
def extra (g : GainCode) : Nat := g.toNat

/-- Total pulses of a read cycle with mode `g` (10_state R24, 40_sequencer R116). -/
def totalPulses (g : GainCode) : Nat := 24 + extra g

/-- `trunc_24((acc << 1) | zext_24(b))` (40_sequencer R114). -/
def shiftIn (acc : Raw) (b : Bool) : Raw := (acc <<< 1) ||| (BitVec.ofBool b).setWidth 24

/-- `SignExtend(raw) = sext_W(raw)` (40_sequencer R118; `sext` as in 00_scope R8). -/
def signExtend (w : Nat) (raw : Raw) : PortVal := ⟨w, raw.signExtend w⟩

end Sys2Proof.Machine
end

