-- ==== Sys2Proof/Machine/Flags.lean ====
section
/-! DEFINITION. The controller has no condition codes (10_state R33). What stands in for flags is its host-visible
status: the command port, the response port, the status codes, and `Respond`, which sets them. -/

namespace Sys2Proof.Machine

/-- Status codes (60_exceptions R200). -/
def Status.code : Status → BitVec 3
  | .ok => 0#3
  | .pinInitError => 1#3
  | .deviceFaulted => 2#3
  | .invalidArgument => 3#3
  | .timeout => 4#3
  | .notInitialized => 5#3

/-- Output port `cmd_ready`: 1 exactly when the sequencer is IDLE (10_state R33, 30_encoding R80). -/
def State.cmdReady (s : State) : Bool := decide (s.seq = .idle)

/-- Input port `cmd_valid`: a host presents a command (30_encoding R77). -/
def State.cmdValid (s : State) : Bool := !s.pending.isEmpty

/-- Input port `cmd_word`, while `cmd_valid` (30_encoding R77). -/
def State.cmdWord (s : State) : Option Word := s.pending.head?

/-- `Respond(status, value)` (60_exceptions R207): the response is recorded and stands on the response port, and the
sequencer is IDLE again. -/
def State.respond (st : Status) (v : PortVal) (s : State) : State :=
  { s with
    responses := s.responses ++ [⟨st, v⟩]
    rspValid := true
    rspStatus := st.code
    rspValue := v
    seq := .idle }

/-- `Respond(status, 0)`, the form of every response but a READ's OK (30_encoding R78). -/
def State.answer (st : Status) (s : State) : State := s.respond st (PortVal.zero s.params.w)

end Sys2Proof.Machine
end

