-- ==== Sys2Proof/Machine/Ops.lean ====
section
/-! DEFINITION. The named operations: draws, the line primitives (40_sequencer R100 to R105), teardown, the fault entry
(60_exceptions R204), and the command handshake (30_encoding R80). A line primitive does not ask whether the line is held
(log entry 11). -/

namespace Sys2Proof.Machine

/-- `draw_cap()` (40_sequencer R103): the next listed outcome, and a free value where none is listed. Log entry 2. -/
def State.nextCap (s : State) : CapResult := s.capDraws.headD (Config.freeCap s.freeCount)

/-- The state once `draw_cap()` has been made. -/
def State.popCap (s : State) : State :=
  { s with
    capDraws := s.capDraws.tail
    freeCount := if s.capDraws.isEmpty then s.freeCount + 1 else s.freeCount }

/-- `draw_data()` (40_sequencer R103): the next listed outcome, and a free value where none is listed. Log entry 2. -/
def State.nextData (s : State) : DataResult := s.dataDraws.headD (Config.freeData s.freeCount)

/-- The state once `draw_data()` has been made. -/
def State.popData (s : State) : State :=
  { s with
    dataDraws := s.dataDraws.tail
    freeCount := if s.dataDraws.isEmpty then s.freeCount + 1 else s.freeCount }

/-- One line event is appended to the trace (00_scope R10, 10_state R36). -/
def State.record (e : Event) (s : State) : State := { s with trace := s.trace ++ [e] }

/-- `LineConfigure(line, dir)` (40_sequencer R100). -/
def lineConfigure (l : Line) (d : Dir) (s : State) : CapResult × State :=
  (s.nextCap,
    { s.popCap.record (.cfg l d s.nextCap) with
      dataOwned := s.dataOwned || (decide (l = .data) && decide (s.nextCap = .ok))
      clockOwned := s.clockOwned || (decide (l = .clock) && decide (s.nextCap = .ok)) })

/-- `LineRead(data)` (40_sequencer R101). -/
def lineRead (s : State) : DataResult × State :=
  (s.nextData, s.popData.record (.rd s.nextData))

/-- The level `LineWrite(clock, v)` leaves, given its result (40_sequencer R102). -/
def levelAfter (v : Bool) (r : CapResult) : ClockLevel :=
  match r with
  | .ok => if v then .high else .low
  | .err => .unknown

/-- `LineWrite(clock, v)` (40_sequencer R102). -/
def lineWrite (v : Bool) (s : State) : CapResult × State :=
  (s.nextCap,
    { s.popCap.record (.wr v s.nextCap) with clockLevel := levelAfter v s.nextCap })

/-- `LineRelease(line)` (40_sequencer R104): the line counts as released whatever the result. -/
def lineRelease (l : Line) (s : State) : CapResult × State :=
  (s.nextCap,
    { s.popCap.record (.rel l s.nextCap) with
      dataOwned := s.dataOwned && !decide (l = .data)
      clockOwned := s.clockOwned && !decide (l = .clock)
      clockLevel := if l = .clock then .undriven else s.clockLevel })

/-- `Settle()` waits `T_SETTLE`: it reads and writes no state and appends no event (40_sequencer R105; log entry 13). -/
def settle (s : State) : State := s

/-- The line teardown releases next: clock first, then data, each only if held (41_session R138). -/
def State.heldLine (s : State) : Option Line :=
  if s.clockOwned then some .clock
  else if s.dataOwned then some .data
  else none

/-- The first `LineRelease` of `Teardown()`, if a line is held; its result is recorded and ignored (41_session R138). -/
def releaseNext (s : State) : State :=
  match s.heldLine with
  | some l => (lineRelease l s).2
  | none => s

/-- What follows the releases of a teardown: `s.chip_mode <- UNKNOWN` (41_session R138) and `s.life <- UNINIT`
(R131, R139). -/
def closeTeardown (s : State) : State := { s with chipMode := .unknown, life := .uninit }

/-- The command `c` continues at point `p` in the next step (10_state R31). -/
def State.goto (c : Cmd) (p : Point) (s : State) : State := { s with seq := .busy c p }

/-- `raise Faulted`, the fault entry (60_exceptions R204): nothing else is written, the lines stay owned and the clock
is left as the failing primitive left it. -/
def raiseFaulted (s : State) : State :=
  ({ s with life := .faulted, chipMode := .unknown } : State).answer .deviceFaulted

/-- A RESERVED word is answered at once, in every life state (30_encoding R76, 60_exceptions R203). -/
def answerReserved (s : State) : State := s.answer .invalidArgument

/-- The point a command stands at; a command begins at `start` (30_encoding R80). -/
def Seq.point : Seq → Point
  | .idle => .start
  | .busy _ p => p

/-- A host presents the word `w`, and the schedule will have it accepted after the first `k` words already waiting:
the order is open, so `k` is anything (60_exceptions R215). -/
def State.present (k : Nat) (w : Word) (s : State) : State :=
  { s with pending := s.pending.take k ++ w :: s.pending.drop k }

/-- Acceptance (30_encoding R80): the word on the port is sampled and decoded, `rsp_valid` falls, and the sequencer
stands at the start of the command. With no command presented nothing happens. -/
def State.accept (s : State) : State :=
  match s.pending with
  | [] => s
  | w :: ws => { s with pending := ws, rspValid := false, seq := .busy (decode w) .start }

end Sys2Proof.Machine
end

