-- ==== Sys2Proof/Machine/ReadCycle.lean ====
section
/-! DEFINITION. The read cycle (40_sequencer R110), one line primitive a step, by the points of 40_sequencer R120 (log entry 7). -/

namespace Sys2Proof.Machine

/-- How the step of a read cycle's primitive goes on (40_sequencer R110, R120). -/
inductive CycleEnd where
  /-- The cycle goes on at this point. -/
  | cont (p : CyclePoint)
  /-- `return TIMEOUT` (R112). -/
  | timeout
  /-- `raise Faulted` (R106). -/
  | faulted
  /-- `return OK(s.acc)` (R117). -/
  | done
  deriving DecidableEq, Repr

/-- The start of `ReadCycle`: both counters are cleared (40_sequencer R110). -/
def cycleStart (s : State) : State := { s with polls := 0, n := 0 }

/-- Has the ready-wait reached `READY_POLL_LIMIT`, if there is one (40_sequencer R112)? -/
def pollLimitReached (s : State) : Bool :=
  match s.params.readyPollLimit with
  | none => false
  | some l => decide (l ≤ s.polls)

/-- A ready poll that read 1 is counted (40_sequencer R110). -/
def countPoll (s : State) : State := { s with polls := s.polls + 1 }

/-- After a ready poll that read 1: TIMEOUT at the limit, and else the next poll (40_sequencer R111, R112). -/
def busyPoll (s : State) : CycleEnd × State :=
  if pollLimitReached (countPoll s) then (.timeout, countPoll s) else (.cont .rw, countPoll s)

/-- Point `RW`: a ready poll (40_sequencer R111, R112). -/
def readyPoll (s : State) : CycleEnd × State :=
  match lineRead s with
  | (.err, s) => (.faulted, s)
  | (.bit false, s) => (.cont (.dh 0), { s with acc := 0#24 })
  | (.bit true, s) => busyPoll s

/-- Points `DH(i)` and `MH(j)`: the rising write of a pulse, then the settle delay (40_sequencer R113, R115). -/
def pulseRise (next : CyclePoint) (s : State) : CycleEnd × State :=
  match lineWrite true s with
  | (.err, s) => (.faulted, s)
  | (.ok, s) => (.cont next, settle s)

/-- Point `DS(i)`: the sample, taken while the clock is high, and its shift into the accumulator (40_sequencer R113, R114). -/
def sample (next : CyclePoint) (s : State) : CycleEnd × State :=
  match lineRead s with
  | (.err, s) => (.faulted, s)
  | (.bit b, s) => (.cont next, { s with acc := shiftIn s.acc b })

/-- Points `DL(i)` and `ML(j)`: the falling write, the settle delay, and the count of the completed pulse
(40_sequencer R113, R115). `after` is what follows the pulse. -/
def pulseFall (after : State → CycleEnd × State) (s : State) : CycleEnd × State :=
  match lineWrite false s with
  | (.err, s) => (.faulted, s)
  | (.ok, s) => after { settle s with n := (settle s).n + 1 }

/-- After data pulse `i`: the next one, or the first mode pulse after the 24th (40_sequencer R120). -/
def afterDataPulse (i : Nat) (s : State) : CycleEnd × State :=
  if i < 23 then (.cont (.dh (i + 1)), s) else (.cont (.mh 1), s)

/-- After mode pulse `j`: the next one, or the end of the cycle, where the chip has latched mode `g`
(40_sequencer R117, R120). -/
def afterModePulse (g : GainCode) (j : Nat) (s : State) : CycleEnd × State :=
  if j < extra g then (.cont (.mh (j + 1)), s) else (.done, { s with chipMode := .known g })

/-- One step of `ReadCycle(g)`: the primitive its point names and what follows it (40_sequencer R120). -/
def cycleStep (g : GainCode) (p : CyclePoint) (s : State) : CycleEnd × State :=
  match p with
  | .rw => readyPoll s
  | .dh i => pulseRise (.ds i) s
  | .ds i => sample (.dl i) s
  | .dl i => pulseFall (afterDataPulse i) s
  | .mh j => pulseRise (.ml j) s
  | .ml j => pulseFall (afterModePulse g j) s

end Sys2Proof.Machine
end

