-- ==== Sys2Proof/Machine/Reads.lean ====
section
/-! DEFINITION. The read commands READ and SET_GAIN (42_read), over the shared read cycle. -/

namespace Sys2Proof.Machine

/-- The life check of READ and SET_GAIN (42_read R152, R162; 60_exceptions R208): outside READY the command is answered
with no other effect; in READY it runs as `run` says. -/
def whenReady (run : State → State) (s : State) : State :=
  match s.life with
  | .uninit => s.answer .notInitialized
  | .faulted => s.answer .deviceFaulted
  | .ready => run s

/-- Is the accumulated sample one that READ discards (42_read R153)? -/
def retries (s : State) : Bool := s.params.satRetry && decide (s.acc = s.params.satSentinel)

/-- READ success: `s.result <- SignExtend(raw)`, and the response is `(OK, s.result)` (42_read R154). -/
def readDone (s : State) : State :=
  ({ s with result := signExtend s.params.w s.acc } : State).respond .ok (signExtend s.params.w s.acc)

/-- What READ does after a step of its read cycle (42_read R151): a discarded sample starts a new cycle, ready-wait
included (R153). -/
def readAfter : CycleEnd × State → State
  | (.cont p, s) => s.goto (.instr .read) (.cyc p)
  | (.timeout, s) => s.answer .timeout
  | (.faulted, s) => raiseFaulted s
  | (.done, s) =>
    if retries s then (cycleStart s).goto (.instr .read) (.cyc .rw) else readDone s

/-- READ at its start: the life check, then the first ready poll of a cycle with the stored gain (42_read R151). -/
def readBegin (s : State) : State :=
  whenReady (fun s => readAfter (cycleStep s.gain .rw (cycleStart s))) s

/-- One step of READ, at the point the sequencer names; a point that is none of READ's own begins the command
(log entry 9). -/
def readStep (s : State) : State :=
  match s.seq.point with
  | .cyc p => readAfter (cycleStep s.gain p s)
  | .start => readBegin s
  | .tear _ => readBegin s
  | .cfgData => readBegin s
  | .cfgClock => readBegin s
  | .driveLow => readBegin s
  | .failTear _ => readBegin s

/-- READ (42_read R151). -/
def execRead (s : State) : Host.Outcome State Fault Refusal :=
  .next (readStep s)

/-- What SET_GAIN does after a step of its commit read (42_read R161): the sample is discarded, with no saturation
retry (R163). -/
def setGainAfter (g : GainCode) : CycleEnd × State → State
  | (.cont p, s) => s.goto (.instr (.setGain g)) (.cyc p)
  | (.timeout, s) => s.answer .timeout
  | (.faulted, s) => raiseFaulted s
  | (.done, s) => s.answer .ok

/-- SET_GAIN at its start: the life check, the store of the gain, then the first ready poll of the commit read
(42_read R161). -/
def setGainBegin (g : GainCode) (s : State) : State :=
  whenReady (fun s => setGainAfter g (cycleStep g .rw (cycleStart { s with gain := g }))) s

/-- One step of SET_GAIN with a valid gain, at the point the sequencer names; a point that is none of SET_GAIN's own
begins the command (log entry 9). -/
def setGainStep (g : GainCode) (s : State) : State :=
  match s.seq.point with
  | .cyc p => setGainAfter g (cycleStep g p s)
  | .start => setGainBegin g s
  | .tear _ => setGainBegin g s
  | .cfgData => setGainBegin g s
  | .cfgClock => setGainBegin g s
  | .driveLow => setGainBegin g s
  | .failTear _ => setGainBegin g s

/-- SET_GAIN (42_read R161). A gain of 0 is no SET_GAIN: it is answered as the RESERVED word it would be (R162;
log entry 10). -/
def execSetGain (g : GainCode) (s : State) : Host.Outcome State Fault Refusal :=
  .next (if g = 0#2 then answerReserved s else setGainStep g s)

end Sys2Proof.Machine
end

