-- ==== Sys2Proof/Machine/Session.lean ====
section
/-! DEFINITION. The session commands INIT and RELEASE (41_session). One step performs one line primitive; what the
pseudocode writes between two primitives falls in the step of the second, and at a command's end in the step of the
last one (00_scope R10; log entry 7). -/

namespace Sys2Proof.Machine

/-- INIT after an ERR (label `fail` of 41_session R131, R135): the held lines are released one a step, and then INIT
responds PIN_INIT_ERROR. Nothing held: it responds at once, and chip_mode is UNKNOWN all the same (log entry 12). -/
def initFail (i : Instr) (s : State) : State :=
  match s.heldLine with
  | some l => s.goto (.instr i) (.failTear l)
  | none => (closeTeardown s).answer .pinInitError

/-- `if s.life != UNINIT: Teardown(); s.life <- UNINIT` once nothing is left to release (41_session R131, R133). -/
def endTeardown (s : State) : State :=
  if s.life = .uninit then s else closeTeardown s

/-- `LineConfigure(data, IN)` of INIT (41_session R134). -/
def acquireData (i : Instr) (s : State) : State :=
  match lineConfigure .data .input s with
  | (.ok, s) => s.goto (.instr i) .cfgClock
  | (.err, s) => initFail i s

/-- `LineConfigure(clock, OUT)` of INIT (41_session R134). -/
def acquireClock (i : Instr) (s : State) : State :=
  match lineConfigure .clock .output s with
  | (.ok, s) => s.goto (.instr i) .driveLow
  | (.err, s) => initFail i s

/-- INIT success (41_session R136). -/
def initDone (g : GainCode) (s : State) : State :=
  ({ s with gain := g, chipMode := .unknown, life := .ready } : State).answer .ok

/-- The initial `LineWrite(clock, 0)` of INIT (41_session R134); its failure counts as a configure failure (R135). -/
def driveClockLow (g : GainCode) (s : State) : State :=
  match lineWrite false s with
  | (.ok, s) => initDone g s
  | (.err, s) => initFail (.init g) s

/-- INIT's teardown of an existing session, once a release of it has been made: the next one, or the acquisition
(41_session R133). -/
def initTorn (i : Instr) (s : State) : State :=
  match s.heldLine with
  | some l => s.goto (.instr i) (.tear l)
  | none => s.goto (.instr i) .cfgData

/-- INIT at its start: the first release of its teardown, or `LineConfigure(data, IN)` at once (41_session R131, R133). -/
def initBegin (i : Instr) (s : State) : State :=
  if s.life ≠ .uninit ∧ s.heldLine ≠ none then initTorn i (releaseNext s)
  else acquireData i (endTeardown s)

/-- One step of INIT with a valid gain: the primitive its point names; a point that is none of INIT's own begins the
command (log entry 9). -/
def initStep (g : GainCode) (s : State) : State :=
  match s.seq.point with
  | .start => initBegin (.init g) s
  | .tear l => initTorn (.init g) (lineRelease l s).2
  | .cfgData => acquireData (.init g) (endTeardown s)
  | .cfgClock => acquireClock (.init g) s
  | .driveLow => driveClockLow g s
  | .failTear l => initFail (.init g) (lineRelease l s).2
  | .cyc _ => initBegin (.init g) s

/-- INIT (41_session R131). A gain of 0 is no INIT: it is answered as the RESERVED word it would be (R132; log entry 10). -/
def execInit (g : GainCode) (s : State) : Host.Outcome State Fault Refusal :=
  .next (if g = 0#2 then answerReserved s else initStep g s)

/-- RELEASE once a release of its teardown has been made, or with no line held: the next release, or the response
(41_session R138, R139). -/
def releaseTorn (s : State) : State :=
  match s.heldLine with
  | some l => s.goto (.instr .release) (.tear l)
  | none => (closeTeardown s).answer .ok

/-- One step of RELEASE (41_session R139): the release its point names, or at its start the first one; a point that is none
of RELEASE's own begins the command (log entry 9). -/
def releaseStep (s : State) : State :=
  match s.seq.point with
  | .tear l => releaseTorn (lineRelease l s).2
  | .start => releaseTorn (releaseNext s)
  | .cyc _ => releaseTorn (releaseNext s)
  | .cfgData => releaseTorn (releaseNext s)
  | .cfgClock => releaseTorn (releaseNext s)
  | .driveLow => releaseTorn (releaseNext s)
  | .failTear _ => releaseTorn (releaseNext s)

/-- RELEASE (41_session R139). -/
def execRelease (s : State) : Host.Outcome State Fault Refusal :=
  .next (releaseStep s)

end Sys2Proof.Machine
end

