-- ==== Sys2Proof/Machine/Dispatch.lean ====
section
/-! DEFINITION. One arm per instruction: the step of the instruction at the point the sequencer names. -/

namespace Sys2Proof.Machine

/-- The meaning of an instruction: the next line primitive of the command and what goes with it (00_scope R10). -/
def exec (i : Instr) (s : State) : Host.Outcome State Fault Refusal :=
  match i with
  | .init g => Sys2Proof.Machine.execInit g s
  | .read => Sys2Proof.Machine.execRead s
  | .setGain g => Sys2Proof.Machine.execSetGain g s
  | .release => Sys2Proof.Machine.execRelease s

end Sys2Proof.Machine
end

