-- ==== Sys2Proof/Machine/Step.lean ====
section
/-! DEFINITION. One step of the controller: the acceptance of a command, or one line primitive of the command in
progress (00_scope R10, 30_encoding R80). -/

namespace Sys2Proof.Machine

/-- In IDLE the presented command is accepted, and with none presented nothing happens (70_reset_and_hazards R248; log entry 14);
otherwise the command in progress makes its next step. -/
def step (s : State) : Host.Outcome State Fault Refusal :=
  match s.seq with
  | .idle => .next s.accept
  | .busy (.instr i) _ => exec i s
  | .busy (.reserved _) _ => .next (answerReserved s)

/-- `s` with the table word `w` presented and accepted, so that the very next step runs that instruction from its
start (log entry 8 says which steps a command takes from reset). -/
def State.withFetchWord (s : State) (nbits w : Nat) : State :=
  ({ s with pending := tableWord nbits w :: s.pending, seq := .idle } : State).accept

end Sys2Proof.Machine
end

