-- ==== Sys2Proof/Safety.lean ====
section
/-! DEFINITION. The terms claims use: the premises on the draws (40_sequencer R103), the events of a read cycle, and
the invariants the spec states (10_state R25, R28 to R30, R32; 30_encoding R78; 60_exceptions R200). -/

namespace Sys2Proof.Safety

open Sys2Proof.Machine

/-- Premise `CapHealthy` (40_sequencer R103): no draw returns ERR, of a capability call or of a `LineRead`, listed or
free. -/
def CapHealthy (s : State) : Prop :=
  (∀ r ∈ s.capDraws, r ≠ .err) ∧ (∀ r ∈ s.dataDraws, r ≠ .err) ∧
  ∀ k, s.freeCount ≤ k → Config.freeCap k ≠ .err ∧ Config.freeData k ≠ .err

/-- `CapHealthy` for a run that makes `m` capability calls and `n` `LineRead`s: those draws are listed, and none of them
returns ERR. It asks nothing of the draws after them, so it is the weaker premise (`healthyFor` in Laws/Runs). -/
abbrev HealthyFor (m n : Nat) (s : State) : Prop :=
  m ≤ s.capDraws.length ∧ n ≤ s.dataDraws.length ∧
  (∀ r ∈ s.capDraws.take m, r ≠ .err) ∧ ∀ r ∈ s.dataDraws.take n, r ≠ .err

/-- The 24 bits of a sample in wire order, most significant first (20_memory R53). -/
def wireBits (raw : Raw) : List Bool := (List.range 24).map fun k => raw.getMsbD k

/-- The ready-wait of a read cycle: `k` polls read 1 and the next reads 0 (40_sequencer R111). -/
abbrev ReadyAfter (k : Nat) (s : State) : Prop :=
  s.dataDraws.take (k + 1) = List.replicate k (.bit true) ++ [.bit false]

/-- Premise `ChipSends(bits)` (40_sequencer R103): the data draws of a read cycle after the ready poll are the 24 bits of
`raw`, most significant first. `polls` is the number of `LineRead`s of the ready-wait, the ready poll included. -/
abbrev ChipSends (raw : Raw) (polls : Nat) (s : State) : Prop :=
  (s.dataDraws.drop polls).take 24 = (wireBits raw).map .bit

/-- The events of a data pulse on which the bit `b` is read (40_sequencer R113). -/
def dataPulseEvents (b : Bool) : List Event := [.wr true .ok, .rd (.bit b), .wr false .ok]

/-- The events of a mode pulse (40_sequencer R115). -/
def modePulseEvents : List Event := [.wr true .ok, .wr false .ok]

/-- The events of a read cycle with mode `g` that completes after `k` polls that read 1 (40_sequencer R110 to R116). -/
def cycleEvents (k : Nat) (raw : Raw) (g : GainCode) : List Event :=
  List.replicate k (.rd (.bit true)) ++ .rd (.bit false) ::
    ((wireBits raw).flatMap dataPulseEvents ++ (List.replicate (extra g) modePulseEvents).flatten)

/-- How many steps that cycle takes, one per event (70_reset_and_hazards R246, cycle length). -/
def cycleSteps (k : Nat) (g : GainCode) : Nat := k + 1 + 72 + 2 * extra g

/-- The gain with which the command `c` runs its read cycle (42_read R151, R161). -/
def cycleGain (c : Cmd) (s : State) : GainCode :=
  match c with
  | .instr (.setGain g) => g
  | _ => s.gain

/-- The operand of a command in progress is a gain code of a mode; a RESERVED word has none (30_encoding R72, R74). -/
def CmdLegal : Cmd → Prop
  | .instr i => i.WellFormed
  | .reserved _ => True

/-- The points a command passes through (10_state R31, 40_sequencer R120, 41_session R131, R139). A teardown releases the
clock first (R138), so only the data line is left for the point after its first release. -/
def pointOf : Cmd → Point → Bool
  | .instr (.init _), p => match p with | .cyc _ | .tear .clock => false | _ => true
  | .instr .read, p => match p with | .start | .cyc _ => true | _ => false
  | .instr (.setGain _), p => match p with | .start | .cyc _ => true | _ => false
  | .instr .release, p => match p with | .start | .tear .data => true | _ => false
  | .reserved _, p => decide (p = .start)

/-- The gain register, and the operand of a command in progress, name a mode (10_state R25). -/
structure GainInv (s : State) : Prop where
  gain : s.gain ≠ 0#2
  cmd  : ∀ c p, s.seq = .busy c p → CmdLegal c
  /-- A SET_GAIN in its commit read has stored its operand (42_read R161), so `cycleGain` is the gain register. -/
  stored : ∀ g p, s.seq = .busy (.instr (.setGain g)) (.cyc p) → s.gain = g

/-- How the pulse counter stands at a point of a read cycle with mode `g` (10_state R32, 40_sequencer R120). -/
def pulsesAt (g : GainCode) (n : Nat) : CyclePoint → Prop
  | .rw => n = 0
  | .dh i => n = i ∧ i < 24
  | .ds i => n = i ∧ i < 24
  | .dl i => n = i ∧ i < 24
  | .mh j => n = 23 + j ∧ 1 ≤ j ∧ j ≤ extra g
  | .ml j => n = 23 + j ∧ 1 ≤ j ∧ j ≤ extra g

/-- The counters (10_state R32): `n` is never above 27, and at a point of a read cycle it is the pulses completed so far;
a ready-wait that goes on has not reached the poll limit (40_sequencer R112). -/
structure PulseInv (s : State) : Prop extends GainInv s where
  bound : s.n ≤ 27
  point : ∀ c p, s.seq = .busy c (.cyc p) → pulsesAt (cycleGain c s) s.n p
  poll  : ∀ c l, s.seq = .busy c (.cyc .rw) → s.params.readyPollLimit = some l → 1 ≤ l → s.polls < l

/-- How many bits the accumulator holds at a point of a read cycle (40_sequencer R114). -/
def bitsAt : CyclePoint → Nat
  | .dh i => i
  | .ds i => i
  | .dl i => i + 1
  | _ => 24

/-- The accumulator holds no bit above those shifted in since the cycle cleared it (40_sequencer R114). -/
def AccInv (s : State) : Prop :=
  ∀ c p, s.seq = .busy c (.cyc p) → s.acc.toNat < 2 ^ bitsAt p

/-- The clock level at a point of a read cycle (40_sequencer R111, R113, R115). -/
def clockAt : CyclePoint → ClockLevel
  | .rw => .low
  | .dh _ => .low
  | .ds _ => .high
  | .dl _ => .high
  | .mh _ => .low
  | .ml _ => .high

/-- Both lines are held, or both are not. -/
abbrev owns (s : State) (data clock : Bool) : Prop := s.dataOwned = data ∧ s.clockOwned = clock

/-- What life says about the lines while no command is at work on them (10_state R29, R30): READY holds both with the
clock low, FAULTED holds both, UNINIT holds none. -/
def restLines (s : State) : Prop :=
  match s.life with
  | .ready => owns s true true ∧ s.clockLevel = .low
  | .faulted => owns s true true
  | .uninit => owns s false false

/-- The lines at each point of a command (10_state R29, R30; 40_sequencer R110 precondition; 41_session R131 to R139).
At `tear` and `cfgData` life is still the one before the teardown, as the pseudocode writes it after the releases
(41_session R131, R139; log entry 7). -/
def linesAt (s : State) : Point → Prop
  | .start => restLines s
  | .cyc p => s.life = .ready ∧ owns s true true ∧ s.clockLevel = clockAt p
  | .tear _ => s.life ≠ .uninit ∧ owns s true false
  | .cfgData => owns s false false
  | .cfgClock => s.life = .uninit ∧ owns s true false
  | .driveLow => s.life = .uninit ∧ owns s true true
  | .failTear l => s.life = .uninit ∧ owns s true (decide (l = .clock))

/-- The line state (10_state R29, R30) and the chip mode (R28): a clock line not held is undriven; outside READY the
chip's mode is not known; a command stands only at a point of its own, with the lines as that point has them. -/
structure LineInv (s : State) : Prop where
  cmd      : ∀ c p, s.seq = .busy c p → CmdLegal c
  undriven : s.clockOwned = false → s.clockLevel = .undriven
  chip     : s.life ≠ .ready → s.chipMode = .unknown
  rest     : s.seq = .idle → restLines s
  lines    : ∀ c p, s.seq = .busy c p → pointOf c p = true ∧ linesAt s p

/-- A response has the width W, and value 0 unless its status is OK (30_encoding R78, 60_exceptions R200). -/
def responseLegal (w : Nat) (r : Response) : Prop :=
  r.value.width = w ∧ (r.status ≠ .ok → r.value = PortVal.zero w)

/-- The response port (30_encoding R78): it holds the last response, `rsp_valid` from that response to the next
acceptance; before any response it is all 0. -/
def portMirrors (s : State) : Prop :=
  match s.responses.getLast? with
  | none => s.rspValid = false ∧ s.rspStatus = 0#3 ∧ s.rspValue = PortVal.zero s.params.w
  | some r => (s.seq = .idle → s.rspValid = true) ∧ s.rspStatus = r.status.code ∧ s.rspValue = r.value

/-- Results and responses (10_state R27, R37; 30_encoding R78). -/
structure ResponseInv (s : State) : Prop where
  width   : s.result.width = s.params.w
  history : ∀ r ∈ s.responses, responseLegal s.params.w r
  busy    : s.seq ≠ .idle → s.rspValid = false
  port    : portMirrors s

/-- What the next line primitive of a capability call does besides its own effect: its draw is used and its event `e` is
recorded (00_scope R10, 40_sequencer R103). -/
def drewCap (e : Event) (s : State) : State :=
  { s with
    capDraws := s.capDraws.tail
    freeCount := if s.capDraws.isEmpty then s.freeCount + 1 else s.freeCount
    trace := s.trace ++ [e] }

/-- The same for a `LineRead` that returned `r` (40_sequencer R101, R103). -/
def drewData (r : DataResult) (s : State) : State :=
  { s with
    dataDraws := s.dataDraws.tail
    freeCount := if s.dataDraws.isEmpty then s.freeCount + 1 else s.freeCount
    trace := s.trace ++ [.rd r] }

/-- `s` once it has responded `(st, v)` (60_exceptions R207): recorded, on the response port, IDLE, and nothing else. -/
def answered (st : Status) (v : PortVal) (s : State) : State :=
  { s with
    responses := s.responses ++ [⟨st, v⟩]
    rspValid := true
    rspStatus := st.code
    rspValue := v
    seq := .idle }

/-- The value of every response but a READ's OK (30_encoding R78). -/
def zeroOf (s : State) : PortVal := ⟨s.params.w, 0#s.params.w⟩

/-- `s` is at point `p` of a read cycle with mode `g`, run by `i`: a READ with the stored gain (42_read R151), or a
SET_GAIN with its operand (R161). -/
def AtCycle (i : Instr) (g : GainCode) (p : CyclePoint) (s : State) : Prop :=
  s.seq = .busy (.instr i) (.cyc p) ∧ ((i = .read ∧ s.gain = g) ∨ (i = .setGain g ∧ g ≠ 0#2))

/-- The line primitive a point of the read cycle names, where it is a clock write: the level written (40_sequencer R120). -/
def writesAt : CyclePoint → Option Bool
  | .rw => none
  | .dh _ => some true
  | .ds _ => none
  | .dl _ => some false
  | .mh _ => some true
  | .ml _ => some false

/-- The level of an event that is a clock write. -/
def clockWrite : Event → Option Bool
  | .wr v _ => some v
  | _ => none

/-- `k` steps of the machine. -/
def run (k : Nat) (s : State) : Host.Outcome State Fault Refusal := Host.Core.run Sys2Proof.core k s

/-- What a completed read cycle with mode `g`, after `k` busy polls, has done to the lines, the counters and the
accumulator when the chip has sent `raw`, the draws it made being used (40_sequencer R110 to R117). -/
def cycled (k : Nat) (raw : Raw) (g : GainCode) (s : State) : State :=
  { s with
    capDraws := s.capDraws.drop (2 * totalPulses g)
    dataDraws := s.dataDraws.drop (k + 25)
    trace := s.trace ++ cycleEvents k raw g
    acc := raw
    n := totalPulses g
    polls := k
    chipMode := .known g
    clockLevel := .low }

/-- The state without its shadow fields, which no command reads (10_state R20): the chip mode, the trace, the responses. -/
def forgetShadow (s : State) : State := { s with chipMode := .unknown, trace := [], responses := [] }

/-- The obligation of 70_reset_and_hazards R240 on the implementation, which the untimed model assumes (log entry 5). -/
def HighPhaseShort (p : Params) : Prop :=
  Config.tHigh + p.tSettle + Config.tRead < Config.tPd ∧ Config.tHigh + p.tSettle < Config.tPd

end Sys2Proof.Safety
end

