-- ==== Sys2Proof/Certificates/Slice0/Obligations.lean ====
section
/-! DEFINITION. The statements for the provers. Each docstring names the rules of spec/ it formalises. `exec i s` is the
next line primitive of the command `i` at the point the sequencer names (00_scope R10); `step` is one step of the machine. -/

open Sys2Proof Sys2Proof.Machine Sys2Proof.Safety

/-! ### Encoding -/

/-- 30_encoding R75: the 8 command words, and every other word RESERVED with its cause. -/
def Obligations.OpcodeMap : Prop :=
  decode 0x04#8 = .instr (.init 1#2) ∧ decode 0x08#8 = .instr (.init 2#2) ∧ decode 0x0C#8 = .instr (.init 3#2) ∧
  decode 0x01#8 = .instr .read ∧
  decode 0x06#8 = .instr (.setGain 1#2) ∧ decode 0x0A#8 = .instr (.setGain 2#2) ∧
  decode 0x0E#8 = .instr (.setGain 3#2) ∧
  decode 0x03#8 = .instr .release ∧
  ∀ w : Word,
    (decode w = .reserved .missingGain ↔ w ∈ [0x00#8, 0x02#8]) ∧
    (decode w = .reserved .strayGain ↔ w ∈ [0x05#8, 0x09#8, 0x0D#8, 0x07#8, 0x0B#8, 0x0F#8]) ∧
    (decode w = .reserved .reservedBits ↔ 0x10 ≤ w.toNat)

/-- Decode and encode agree in both directions (30_encoding R70, R72, R74): a word decodes to `i` exactly if `i` is
well formed and the word is its encoding. -/
def Obligations.DecodeEncode : Prop :=
  ∀ (w : Word) (i : Instr), decode w = .instr i ↔ i.WellFormed ∧ encode i = w

/-- 30_encoding R81: a mode assembles to its GAIN value, READ and RELEASE to their words, `.word n` to `n`. -/
def Obligations.AssemblyWords : Prop :=
  (∀ m : GainMode, decode (assemble (.init m)) = .instr (.init m.code) ∧
    decode (assemble (.setGain m)) = .instr (.setGain m.code)) ∧
  decode (assemble .read) = .instr .read ∧ decode (assemble .release) = .instr .release ∧
  (∀ n : Word, assemble (.word n) = n) ∧
  GainMode.a128.code = 1#2 ∧ GainMode.b32.code = 2#2 ∧ GainMode.a64.code = 3#2

/-- 10_state R24: the table of the modes; the gain code 0 names none. -/
def Obligations.GainTable : Prop :=
  (GainMode.a128.channel = .a ∧ GainMode.a128.factor = 128 ∧ extra GainMode.a128.code = 1 ∧
    totalPulses GainMode.a128.code = 25 ∧ GainMode.a128.code = 1#2) ∧
  (GainMode.b32.channel = .b ∧ GainMode.b32.factor = 32 ∧ extra GainMode.b32.code = 2 ∧
    totalPulses GainMode.b32.code = 26 ∧ GainMode.b32.code = 2#2) ∧
  (GainMode.a64.channel = .a ∧ GainMode.a64.factor = 64 ∧ extra GainMode.a64.code = 3 ∧
    totalPulses GainMode.a64.code = 27 ∧ GainMode.a64.code = 3#2) ∧
  ∀ g : GainCode, GainMode.ofCode g = none ↔ g = 0#2

/-- 60_exceptions R200: the six codes; 6 and 7 are never the code of a status. -/
def Obligations.StatusCodes : Prop :=
  Status.ok.code = 0#3 ∧ Status.pinInitError.code = 1#3 ∧ Status.deviceFaulted.code = 2#3 ∧
  Status.invalidArgument.code = 3#3 ∧ Status.timeout.code = 4#3 ∧ Status.notInitialized.code = 5#3 ∧
  ∀ st : Status, st.code ≠ 6#3 ∧ st.code ≠ 7#3

/-! ### Reset, acceptance, responses -/

/-- 70_reset_and_hazards R230: every field and port at its reset value, for every choice of the parameters. -/
def Obligations.ResetState : Prop :=
  ∀ p : Params, let s := State.resetWith p
    s.life = .uninit ∧ s.gain = 1#2 ∧ s.acc = 0#24 ∧ s.result = zeroOf s ∧ s.chipMode = .unknown ∧
    s.clockLevel = .undriven ∧ s.dataOwned = false ∧ s.clockOwned = false ∧ s.seq = .idle ∧ s.n = 0 ∧ s.polls = 0 ∧
    s.trace = [] ∧ s.responses = [] ∧ s.cmdReady = true ∧ s.rspValid = false ∧ s.rspStatus = 0#3 ∧
    s.rspValue = zeroOf s ∧ s.params = p

/-- A step runs the decoded instruction: in IDLE it accepts the word on the port (30_encoding R80) and stands at the
start of the decoded command; in a command it is `exec` of it, with nothing around it. -/
def Obligations.StepRunsInstruction : Prop :=
  ∀ s : State,
    (∀ w ws, s.seq = .idle → s.pending = w :: ws →
      step s = .next { s with pending := ws, rspValid := false, seq := .busy (decode w) .start }) ∧
    (∀ i p, s.seq = .busy (.instr i) p → step s = exec i s)

/-- `cmd_ready` is 1 exactly in IDLE (30_encoding R80). That a step in IDLE with no command presented answers the same state
is the model's choice, log entry 14: 70_reset_and_hazards R248 says that the run ends there, R231 only that no line
primitive is performed. -/
def Obligations.IdleWaits : Prop :=
  ∀ s : State,
    (s.cmdReady = true ↔ s.seq = .idle) ∧
    (s.seq = .idle → s.cmdValid = false → step s = .next s)

/-- 30_encoding R76, 60_exceptions R203: a RESERVED word is accepted and answered INVALID_ARGUMENT, in every life state;
nothing else changes, and `rsp_*` show the answer. -/
def Obligations.ReservedAnswered : Prop :=
  ∀ (s : State) (w : Word) (ws : List Word) (why : Reserved),
    s.seq = .idle → s.pending = w :: ws → decode w = .reserved why →
    run 2 s = .next (answered .invalidArgument (zeroOf s) { s with pending := ws })

/-- No step faults or refuses: a command in progress, a RESERVED word among them, has a next state (30_encoding R76,
60_exceptions R209, 40_sequencer R121). For two kinds of state a next state is the model's choice: IDLE with no command
presented, where 70_reset_and_hazards R248 says that the run ends (log entry 14), and a gain operand 0 at `exec`, which the
decoder never gives (log entry 10). -/
def Obligations.StepAnswersNext : Prop :=
  ∀ s : State, ∃ t, step s = .next t

/-- 60_exceptions R207, 20_memory R58: a step of a command in progress either goes on with the same command and no
response, or responds exactly once, shows the response on the port and is IDLE. -/
def Obligations.CommandRunsAlone : Prop :=
  ∀ (s t : State) (c : Cmd) (p : Point), s.seq = .busy c p → step s = .next t →
    (∃ q, t.seq = .busy c q ∧ t.responses = s.responses ∧ t.rspValid = s.rspValid ∧
      t.rspStatus = s.rspStatus ∧ t.rspValue = s.rspValue) ∨
    (t.seq = .idle ∧ ∃ st v, t.responses = s.responses ++ [⟨st, v⟩] ∧ t.rspValid = true ∧
      t.rspStatus = st.code ∧ t.rspValue = v)

/-- 00_scope R10, 10_state R36: a step performs at most one line primitive. It appends the event of that primitive with
the result drawn, uses up that draw, and leaves the rest of the trace and of the draws as they are. -/
def Obligations.OnePrimitivePerStep : Prop :=
  ∀ s t : State, step s = .next t →
    (t.trace = s.trace ∧ t.capDraws = s.capDraws ∧ t.dataDraws = s.dataDraws ∧ t.freeCount = s.freeCount) ∨
    (t.trace = s.trace ++ [.rd s.nextData] ∧ t.dataDraws = s.dataDraws.tail ∧ t.capDraws = s.capDraws) ∨
    (∃ e, (e = .cfg .data .input s.nextCap ∨ e = .cfg .clock .output s.nextCap ∨ e = .wr true s.nextCap ∨
        e = .wr false s.nextCap ∨ e = .rel .data s.nextCap ∨ e = .rel .clock s.nextCap) ∧
      t.trace = s.trace ++ [e] ∧ t.capDraws = s.capDraws.tail ∧ t.dataDraws = s.dataDraws)

/-- 30_encoding R80, 60_exceptions R209: while a command is in progress, the words waiting at the port are neither lost nor
reordered, and a word a host presents meanwhile changes nothing the command does: hosts cannot cancel or steer it. -/
def Obligations.HostsCannotInterfere : Prop :=
  ∀ (s t : State) (c : Cmd) (p : Point) (k : Nat) (w : Word), s.seq = .busy c p → step s = .next t →
    t.pending = s.pending ∧ step (s.present k w) = .next (t.present k w)

/-! ### INIT and RELEASE -/

/-- 41_session R134, R136: INIT from UNINIT acquires data, then clock, then drives the clock low; after the third the
session is READY with the gain stored. Completion of INIT. -/
def Obligations.InitAcquires : Prop :=
  ∀ (g : GainCode) (s : State), g ≠ 0#2 → s.nextCap = .ok →
    (s.seq = .busy (.instr (.init g)) .start → s.life = .uninit →
      exec (.init g) s = .next
        { drewCap (.cfg .data .input .ok) s with dataOwned := true, seq := .busy (.instr (.init g)) .cfgClock }) ∧
    (s.seq = .busy (.instr (.init g)) .cfgClock →
      exec (.init g) s = .next
        { drewCap (.cfg .clock .output .ok) s with clockOwned := true, seq := .busy (.instr (.init g)) .driveLow }) ∧
    (s.seq = .busy (.instr (.init g)) .driveLow →
      exec (.init g) s = .next (answered .ok (zeroOf s)
        { drewCap (.wr false .ok) s with clockLevel := .low, gain := g, chipMode := .unknown, life := .ready }))

/-- 41_session R135: what INIT does when one of its three primitives fails. Lines still held are released one a step
before it responds PIN_INIT_ERROR; with none held it responds in the same step. The gain keeps its value. That chip mode is
set to UNKNOWN also with nothing held follows the pseudocode of R131, where R135's words say it is then unchanged: the
model's choice, log entry 12 (it is UNKNOWN already in every state that meets the line invariant). -/
def Obligations.InitFails : Prop :=
  ∀ (g : GainCode) (s : State), g ≠ 0#2 → s.nextCap = .err →
    (s.seq = .busy (.instr (.init g)) .start → s.life = .uninit → owns s false false →
      exec (.init g) s = .next (answered .pinInitError (zeroOf s)
        { drewCap (.cfg .data .input .err) s with chipMode := .unknown, life := .uninit })) ∧
    (s.seq = .busy (.instr (.init g)) .cfgData → s.life ≠ .uninit → owns s false false →
      exec (.init g) s = .next (answered .pinInitError (zeroOf s)
        { drewCap (.cfg .data .input .err) s with chipMode := .unknown, life := .uninit })) ∧
    (s.seq = .busy (.instr (.init g)) .cfgClock → owns s true false →
      exec (.init g) s = .next
        { drewCap (.cfg .clock .output .err) s with seq := .busy (.instr (.init g)) (.failTear .data) }) ∧
    (s.seq = .busy (.instr (.init g)) .driveLow → owns s true true →
      exec (.init g) s = .next
        { drewCap (.wr false .err) s with clockLevel := .unknown, seq := .busy (.instr (.init g)) (.failTear .clock) })

/-- 41_session R135, R138: the releases of a failed INIT, clock first; their results are recorded and ignored, and the
last one responds PIN_INIT_ERROR with life UNINIT. Each is made at the point that names it (10_state R31). -/
def Obligations.InitFailReleases : Prop :=
  ∀ (g : GainCode) (s : State), g ≠ 0#2 →
    (s.seq = .busy (.instr (.init g)) (.failTear .clock) → owns s true true →
      exec (.init g) s = .next
        { drewCap (.rel .clock s.nextCap) s with
          clockOwned := false, clockLevel := .undriven, seq := .busy (.instr (.init g)) (.failTear .data) }) ∧
    (s.seq = .busy (.instr (.init g)) (.failTear .data) → owns s true false →
      exec (.init g) s = .next (answered .pinInitError (zeroOf s)
        { drewCap (.rel .data s.nextCap) s with dataOwned := false, chipMode := .unknown, life := .uninit }))

/-- 41_session R133: INIT from READY or FAULTED releases the held lines, whatever the results, before it acquires, and sets
chip mode UNKNOWN (R138) and life UNINIT (R131). That both are written in the step of the data configure, and kept through
the releases, is the model's placement by 00_scope R10: the model's choice, log entry 7. -/
def Obligations.InitReconstructs : Prop :=
  ∀ (g : GainCode) (s : State), g ≠ 0#2 → s.life ≠ .uninit →
    (s.seq = .busy (.instr (.init g)) .start → owns s true true →
      exec (.init g) s = .next
        { drewCap (.rel .clock s.nextCap) s with
          clockOwned := false, clockLevel := .undriven, seq := .busy (.instr (.init g)) (.tear .data) }) ∧
    (s.seq = .busy (.instr (.init g)) (.tear .data) → owns s true false →
      exec (.init g) s = .next
        { drewCap (.rel .data s.nextCap) s with dataOwned := false, seq := .busy (.instr (.init g)) .cfgData }) ∧
    (s.seq = .busy (.instr (.init g)) .cfgData → s.nextCap = .ok →
      exec (.init g) s = .next
        { drewCap (.cfg .data .input .ok) s with
          dataOwned := true, chipMode := .unknown, life := .uninit, seq := .busy (.instr (.init g)) .cfgClock })

/-- 41_session R138 to R140: one step of RELEASE, for every set of held lines: the clock is released first, then the data
line, each only if held and whatever the result; with the last release, or at once with no line held, RELEASE responds
(OK, 0). Completion of RELEASE. That life and chip mode are kept between two releases is the model's placement by 00_scope
R10: the model's choice, log entry 7. A point that names a release names the next one (10_state R31): the premise, which
LineInv gives in every state a run reaches. -/
def Obligations.ReleaseSteps : Prop :=
  ∀ (s : State) (p : Point), s.seq = .busy (.instr .release) p → (∀ l, p = .tear l → s.heldLine = some l) →
    (owns s true true →
      exec .release s = .next
        { drewCap (.rel .clock s.nextCap) s with
          clockOwned := false, clockLevel := .undriven, seq := .busy (.instr .release) (.tear .data) }) ∧
    (owns s false true →
      exec .release s = .next (answered .ok (zeroOf s)
        { drewCap (.rel .clock s.nextCap) s with
          clockOwned := false, clockLevel := .undriven, chipMode := .unknown, life := .uninit })) ∧
    (owns s true false →
      exec .release s = .next (answered .ok (zeroOf s)
        { drewCap (.rel .data s.nextCap) s with dataOwned := false, chipMode := .unknown, life := .uninit })) ∧
    (owns s false false →
      exec .release s = .next (answered .ok (zeroOf s) { s with chipMode := .unknown, life := .uninit }))

/-- A gain operand of 0 at `exec`, which the decoder never gives, is answered as the RESERVED word it would be
(30_encoding R76; 41_session R132; 42_read R162): the model's choice, log entry 10. -/
def Obligations.ZeroGainRejected : Prop :=
  ∀ s : State,
    exec (.init 0#2) s = .next (answered .invalidArgument (zeroOf s) s) ∧
    exec (.setGain 0#2) s = .next (answered .invalidArgument (zeroOf s) s)

/-- 41_session R137, first bullet: the whole INIT from UNINIT with the capability healthy. -/
def Obligations.InitRunFresh : Prop :=
  ∀ (g : GainCode) (s : State), g ≠ 0#2 →
    s.seq = .busy (.instr (.init g)) .start → s.life = .uninit → HealthyFor 3 0 s →
    run 3 s = .next (answered .ok (zeroOf s)
      { s with
        capDraws := s.capDraws.drop 3
        trace := s.trace ++ [.cfg .data .input .ok, .cfg .clock .output .ok, .wr false .ok]
        dataOwned := true, clockOwned := true, clockLevel := .low, gain := g, chipMode := .unknown, life := .ready })

/-- 41_session R133, R137: the whole INIT from READY or FAULTED: two releases, whatever their results, then the three
acquisitions. -/
def Obligations.InitRunAgain : Prop :=
  ∀ (g : GainCode) (s : State) (r1 r2 : CapResult) (rest : List CapResult), g ≠ 0#2 →
    s.seq = .busy (.instr (.init g)) .start → s.life ≠ .uninit → owns s true true →
    s.capDraws = r1 :: r2 :: .ok :: .ok :: .ok :: rest →
    run 5 s = .next (answered .ok (zeroOf s)
      { s with
        capDraws := rest
        trace := s.trace ++ [.rel .clock r1, .rel .data r2, .cfg .data .input .ok, .cfg .clock .output .ok, .wr false .ok]
        dataOwned := true, clockOwned := true, clockLevel := .low, gain := g, chipMode := .unknown, life := .ready })

/-- 41_session R131, R135, R137: the whole INIT from UNINIT, no line held, when the data configure, the clock configure or the
low drive fails: what was acquired is released, and the response is PIN_INIT_ERROR. That chip mode is set to UNKNOWN also
when nothing was released follows the pseudocode of R131, where R135's words say it is then unchanged: the model's choice,
log entry 12. -/
def Obligations.InitRunFails : Prop :=
  ∀ (g : GainCode) (s : State) (r1 r2 : CapResult) (rest : List CapResult), g ≠ 0#2 →
    s.seq = .busy (.instr (.init g)) .start → s.life = .uninit → owns s false false → s.clockLevel = .undriven →
    let done (ev : List Event) : State := answered .pinInitError (zeroOf s)
      { s with capDraws := rest, trace := s.trace ++ ev, chipMode := .unknown }
    (s.capDraws = .err :: rest → run 1 s = .next (done [.cfg .data .input .err])) ∧
    (s.capDraws = .ok :: .err :: r1 :: rest →
      run 3 s = .next (done [.cfg .data .input .ok, .cfg .clock .output .err, .rel .data r1])) ∧
    (s.capDraws = .ok :: .ok :: .err :: r1 :: r2 :: rest →
      run 5 s = .next
        (done [.cfg .data .input .ok, .cfg .clock .output .ok, .wr false .err, .rel .clock r1, .rel .data r2]))

/-- 41_session R139, R141: the whole RELEASE of a session that holds both lines, whatever the two releases answer. -/
def Obligations.ReleaseRun : Prop :=
  ∀ (s : State) (r1 r2 : CapResult) (rest : List CapResult),
    s.seq = .busy (.instr .release) .start → owns s true true → s.capDraws = r1 :: r2 :: rest →
    run 2 s = .next (answered .ok (zeroOf s)
      { s with
        capDraws := rest
        trace := s.trace ++ [.rel .clock r1, .rel .data r2]
        dataOwned := false, clockOwned := false, clockLevel := .undriven, chipMode := .unknown, life := .uninit })

/-! ### READ, SET_GAIN and the read cycle -/

/-- 42_read R152, R162; 60_exceptions R206, R202(b): outside READY, READ and SET_GAIN are answered with no other effect. -/
def Obligations.OutsideReady : Prop :=
  ∀ (i : Instr) (s : State), (i = .read ∨ ∃ g, g ≠ 0#2 ∧ i = .setGain g) → s.seq = .busy (.instr i) .start →
    (s.life = .uninit → exec i s = .next (answered .notInitialized (zeroOf s) s)) ∧
    (s.life = .faulted → exec i s = .next (answered .deviceFaulted (zeroOf s) s))

/-- 40_sequencer R110, R120; 42_read R151, R161: in READY both commands begin at point RW with both counters 0, in the
step of the first poll; SET_GAIN has stored its gain by then. -/
def Obligations.CycleBegins : Prop :=
  ∀ s : State, s.life = .ready →
    (s.seq = .busy (.instr .read) .start →
      exec .read s = exec .read { s with polls := 0, n := 0, seq := .busy (.instr .read) (.cyc .rw) }) ∧
    (∀ g, g ≠ 0#2 → s.seq = .busy (.instr (.setGain g)) .start →
      exec (.setGain g) s =
        exec (.setGain g) { s with gain := g, polls := 0, n := 0, seq := .busy (.instr (.setGain g)) (.cyc .rw) })

/-- 40_sequencer R111, R112, R120 (row RW): a poll that reads 0 starts the data pulses with a cleared accumulator; a poll
that reads 1 repeats the poll, or ends the command with TIMEOUT when it reaches the limit; no clock edge is driven. -/
def Obligations.ReadyPoll : Prop :=
  ∀ (i : Instr) (g : GainCode) (s : State), AtCycle i g .rw s →
    (s.nextData = .bit false →
      exec i s = .next { drewData (.bit false) s with acc := 0#24, seq := .busy (.instr i) (.cyc (.dh 0)) }) ∧
    (s.nextData = .bit true → (∀ l, s.params.readyPollLimit = some l → s.polls + 1 < l) →
      exec i s = .next { drewData (.bit true) s with polls := s.polls + 1 }) ∧
    (∀ l, s.nextData = .bit true → s.params.readyPollLimit = some l → l ≤ s.polls + 1 →
      exec i s = .next (answered .timeout (zeroOf s) { drewData (.bit true) s with polls := s.polls + 1 }))

/-- 40_sequencer R113, R114, R120 (rows DH, DS, DL): the three primitives of data pulse `k`. -/
def Obligations.DataPulse : Prop :=
  ∀ (i : Instr) (g : GainCode) (s : State) (k : Nat), k < 24 →
    (AtCycle i g (.dh k) s → s.nextCap = .ok →
      exec i s = .next { drewCap (.wr true .ok) s with clockLevel := .high, seq := .busy (.instr i) (.cyc (.ds k)) }) ∧
    (∀ b, AtCycle i g (.ds k) s → s.nextData = .bit b →
      exec i s = .next
        { drewData (.bit b) s with
          acc := BitVec.ofNat 24 (2 * s.acc.toNat + b.toNat), seq := .busy (.instr i) (.cyc (.dl k)) }) ∧
    (AtCycle i g (.dl k) s → s.nextCap = .ok →
      exec i s = .next
        { drewCap (.wr false .ok) s with
          clockLevel := .low, n := s.n + 1
          seq := .busy (.instr i) (.cyc (if k < 23 then .dh (k + 1) else .mh 1)) })

/-- 40_sequencer R115, R120 (rows MH, ML): a mode pulse, and the next one while mode pulses are left; `data` is not read. -/
def Obligations.ModePulse : Prop :=
  ∀ (i : Instr) (g : GainCode) (s : State) (j : Nat),
    (AtCycle i g (.mh j) s → s.nextCap = .ok →
      exec i s = .next { drewCap (.wr true .ok) s with clockLevel := .high, seq := .busy (.instr i) (.cyc (.ml j)) }) ∧
    (AtCycle i g (.ml j) s → s.nextCap = .ok → j < g.toNat →
      exec i s = .next
        { drewCap (.wr false .ok) s with
          clockLevel := .low, n := s.n + 1, seq := .busy (.instr i) (.cyc (.mh (j + 1))) })

/-- 40_sequencer R117, 42_read R151, R154: the last primitive of READ: the sample is sign-extended into the result and
returned, unless the saturation guard discards it. Completion of READ. -/
def Obligations.ReadCompletes : Prop :=
  ∀ (s : State) (j : Nat), s.seq = .busy (.instr .read) (.cyc (.ml j)) → s.gain.toNat ≤ j → s.nextCap = .ok →
    ¬ (s.params.satRetry = true ∧ s.acc = s.params.satSentinel) →
    exec .read s = .next (answered .ok ⟨s.params.w, s.acc.signExtend s.params.w⟩
      { drewCap (.wr false .ok) s with
        clockLevel := .low, n := s.n + 1, chipMode := .known s.gain, result := ⟨s.params.w, s.acc.signExtend s.params.w⟩ })

/-- 42_read R153: with SAT_RETRY a sample equal to SAT_SENTINEL is discarded and a complete new cycle begins, ready-wait
included, with no response and no write of the result. That both counters are cleared in the step that ends the discarded
cycle is read from 40_sequencer R120, where 00_scope R10 could place it in the next poll's step: the model's choice, log
entry 7. -/
def Obligations.ReadRetries : Prop :=
  ∀ (s : State) (j : Nat), s.seq = .busy (.instr .read) (.cyc (.ml j)) → s.gain.toNat ≤ j → s.nextCap = .ok →
    s.params.satRetry = true → s.acc = s.params.satSentinel →
    exec .read s = .next
      { drewCap (.wr false .ok) s with
        clockLevel := .low, n := 0, polls := 0, chipMode := .known s.gain, seq := .busy (.instr .read) (.cyc .rw) }

/-- 42_read R161, R163: the last primitive of SET_GAIN's commit read: the sample is discarded whatever it is, and the
response is (OK, 0). Completion of SET_GAIN. -/
def Obligations.SetGainCompletes : Prop :=
  ∀ (g : GainCode) (s : State) (j : Nat), g ≠ 0#2 → s.seq = .busy (.instr (.setGain g)) (.cyc (.ml j)) → g.toNat ≤ j →
    s.nextCap = .ok →
    exec (.setGain g) s = .next (answered .ok (zeroOf s)
      { drewCap (.wr false .ok) s with clockLevel := .low, n := s.n + 1, chipMode := .known g })

/-- 60_exceptions R204: the fault entry, at every point of the read cycle of READ and SET_GAIN, and at the first poll of a
command that begins in READY. A failed clock write leaves the level UNKNOWN, a failed read leaves it as it was; the lines
stay owned, SET_GAIN's store of its gain stands, and nothing else is written. In a state that meets the line invariant the
level after a failed sample is HIGH, and after a failed ready poll LOW. -/
def Obligations.FaultEntry : Prop :=
  (∀ s : State, s.life = .ready → s.nextData = .err →
    let faulted : State := answered .deviceFaulted (zeroOf s)
      { drewData .err s with life := .faulted, chipMode := .unknown, polls := 0, n := 0 }
    (s.seq = .busy (.instr .read) .start → exec .read s = .next faulted) ∧
    (∀ g, g ≠ 0#2 → s.seq = .busy (.instr (.setGain g)) .start →
      exec (.setGain g) s = .next { faulted with gain := g })) ∧
  (∀ (i : Instr) (g : GainCode) (p : CyclePoint) (s : State), AtCycle i g p s →
    (writesAt p = none → s.nextData = .err →
      exec i s = .next (answered .deviceFaulted (zeroOf s)
        { drewData .err s with life := .faulted, chipMode := .unknown })) ∧
    (∀ v, writesAt p = some v → s.nextCap = .err →
      exec i s = .next (answered .deviceFaulted (zeroOf s)
        { drewCap (.wr v .err) s with clockLevel := .unknown, life := .faulted, chipMode := .unknown }))) ∧
  ∀ s : State, LineInv s → s.nextData = .err →
    (∀ i, (i = .read ∨ ∃ g, i = .setGain g) → s.seq = .busy (.instr i) .start → s.life = .ready →
      ∃ t, exec i s = .next t ∧ t.life = .faulted ∧ t.clockLevel = .low ∧ owns t true true) ∧
    (∀ i g p, AtCycle i g p s → writesAt p = none →
      ∃ t, exec i s = .next t ∧ t.life = .faulted ∧ t.clockLevel = (if p = .rw then .low else .high) ∧ owns t true true)

/-- 42_read R151, R154, R156; 40_sequencer R110 to R118: a whole READ. From its start in READY, with the capability healthy,
`k` busy polls and then the 24 bits of `raw`, READ takes one step per event and returns `sext_W(raw)`. Premises of
40_sequencer R103: `CapHealthy`, for the draws of the cycle, and `ChipSends`. -/
def Obligations.ReadRun : Prop :=
  ∀ (s : State) (k : Nat) (raw : Raw),
    s.seq = .busy (.instr .read) .start → s.life = .ready → s.gain ≠ 0#2 →
    (∀ l, s.params.readyPollLimit = some l → k < l) →
    ¬ (s.params.satRetry = true ∧ raw = s.params.satSentinel) →
    HealthyFor (2 * totalPulses s.gain) (k + 25) s → ReadyAfter k s → ChipSends raw (k + 1) s →
    run (cycleSteps k s.gain) s = .next (answered .ok ⟨s.params.w, raw.signExtend s.params.w⟩
      { cycled k raw s.gain s with result := ⟨s.params.w, raw.signExtend s.params.w⟩ })

/-- 42_read R153: a whole cycle of READ whose sample the saturation guard discards ends at RW of a new cycle. That the
counters are 0 there, right after the last write of the discarded cycle, is read from 40_sequencer R120, where 00_scope R10
could place it in the next poll's step: the model's choice, log entry 7. -/
def Obligations.ReadRetryRun : Prop :=
  ∀ (s : State) (k : Nat),
    s.seq = .busy (.instr .read) .start → s.life = .ready → s.gain ≠ 0#2 →
    (∀ l, s.params.readyPollLimit = some l → k < l) →
    s.params.satRetry = true →
    HealthyFor (2 * totalPulses s.gain) (k + 25) s → ReadyAfter k s → ChipSends s.params.satSentinel (k + 1) s →
    run (cycleSteps k s.gain) s = .next
      { cycled k s.params.satSentinel s.gain s with
        polls := 0, n := 0, seq := .busy (.instr .read) (.cyc .rw) }

/-- 42_read R161, R163, R165, R166: a whole SET_GAIN: one commit read with the new gain, its sample discarded (the
saturation guard does not apply), then (OK, 0) with the gain stored and the chip mode equal to it. -/
def Obligations.SetGainRun : Prop :=
  ∀ (g : GainCode) (s : State) (k : Nat) (raw : Raw), g ≠ 0#2 →
    s.seq = .busy (.instr (.setGain g)) .start → s.life = .ready →
    (∀ l, s.params.readyPollLimit = some l → k < l) →
    HealthyFor (2 * totalPulses g) (k + 25) s → ReadyAfter k s → ChipSends raw (k + 1) s →
    run (cycleSteps k g) s = .next (answered .ok (zeroOf s) { cycled k raw g s with gain := g })

/-- 40_sequencer R116, R117: the clock writes of a whole READ: exactly `24 + extra(g)` pulses, each a 1 then a 0. -/
def Obligations.ReadPulseCount : Prop :=
  ∀ (s : State) (k : Nat) (raw : Raw),
    s.seq = .busy (.instr .read) .start → s.life = .ready → s.gain ≠ 0#2 →
    (∀ l, s.params.readyPollLimit = some l → k < l) →
    ¬ (s.params.satRetry = true ∧ raw = s.params.satSentinel) →
    HealthyFor (2 * totalPulses s.gain) (k + 25) s → ReadyAfter k s → ChipSends raw (k + 1) s →
    ∃ t ev, run (cycleSteps k s.gain) s = .next t ∧ t.seq = .idle ∧ t.trace = s.trace ++ ev ∧
      ev.filterMap clockWrite = (List.replicate (24 + s.gain.toNat) [true, false]).flatten

/-- 40_sequencer R112, 60_exceptions R205, 42_read R164: with READY_POLL_LIMIT = L, exactly L polls that read 1 end the
command with TIMEOUT: no clock edge, life READY, the accumulator, the result and the chip mode unchanged; SET_GAIN's store
of its gain stands. -/
def Obligations.TimeoutRun : Prop :=
  ∀ (s : State) (l : Nat) (data : List DataResult), s.life = .ready → s.params.readyPollLimit = some l → 1 ≤ l →
    s.dataDraws = List.replicate l (.bit true) ++ data →
    let ended : State := answered .timeout (zeroOf s)
      { s with
        dataDraws := data
        trace := s.trace ++ List.replicate l (.rd (.bit true))
        polls := l, n := 0 }
    (s.seq = .busy (.instr .read) .start → run l s = .next ended) ∧
    (∀ g, g ≠ 0#2 → s.seq = .busy (.instr (.setGain g)) .start → run l s = .next { ended with gain := g })

/-- 40_sequencer R121, 60_exceptions R209: with READY_POLL_LIMIT = NONE a ready-wait whose polls read 1 goes on at RW, for
any number of polls: no response, no clock edge, no error. -/
def Obligations.ReadyWaitHangs : Prop :=
  ∀ (i : Instr) (g : GainCode) (s : State) (k : Nat) (data : List DataResult), AtCycle i g .rw s →
    s.params.readyPollLimit = none → s.dataDraws = List.replicate k (.bit true) ++ data →
    run k s = .next
      { s with
        dataDraws := data
        trace := s.trace ++ List.replicate k (.rd (.bit true))
        polls := s.polls + k }

/-! ### The data path -/

/-- 40_sequencer R114, 20_memory R53: shifting 24 bits into a cleared accumulator puts the first bit read in bit 23 and
the last in bit 0; and a shift loses no bit while fewer than 24 are held. -/
def Obligations.ShiftIn : Prop :=
  (∀ raw : Raw, (wireBits raw).foldl shiftIn 0#24 = raw) ∧
  (∀ (acc : Raw) (b : Bool) (k : Nat), k < 24 → acc.toNat < 2 ^ k →
    (shiftIn acc b).toNat = 2 * acc.toNat + b.toNat ∧ (shiftIn acc b).toNat < 2 ^ (k + 1))

/-- 40_sequencer R118: sign extension keeps the signed value, in the 24-bit range, at every W of at least 24; bits 23 to 0 are
the sample and every bit above is bit 23; at W = 32 it is the source's OR of the upper 8 bits. -/
def Obligations.SignExtension : Prop :=
  (∀ (w : Nat) (raw : Raw), 24 ≤ w →
    (signExtend w raw).width = w ∧ (signExtend w raw).signed = raw.toInt ∧
    -8388608 ≤ (signExtend w raw).signed ∧ (signExtend w raw).signed ≤ 8388607 ∧
    (∀ k, k < 24 → (signExtend w raw).bits.getLsbD k = raw.getLsbD k) ∧
    (∀ k, 24 ≤ k → k < w → (signExtend w raw).bits.getLsbD k = raw.getLsbD 23)) ∧
  (∀ raw : Raw, signExtend 32 raw =
    ⟨32, if raw.getLsbD 23 then 0xFF000000#32 ||| raw.setWidth 32 else raw.setWidth 32⟩)

/-- 40_sequencer R119: the round trip. A READ in whose cycle the chip sends the two's-complement pattern of `x` ends with
a result whose signed value is `x`, for every `x` of 24 bits that the saturation guard does not discard and every W of at
least 24. -/
def Obligations.ReadRoundTrip : Prop :=
  ∀ (s : State) (k : Nat) (x : Int),
    -8388608 ≤ x → x ≤ 8388607 → 24 ≤ s.params.w →
    s.seq = .busy (.instr .read) .start → s.life = .ready → s.gain ≠ 0#2 →
    (∀ l, s.params.readyPollLimit = some l → k < l) →
    ¬ (s.params.satRetry = true ∧ BitVec.ofInt 24 x = s.params.satSentinel) →
    HealthyFor (2 * totalPulses s.gain) (k + 25) s → ReadyAfter k s → ChipSends (BitVec.ofInt 24 x) (k + 1) s →
    ∃ t, run (cycleSteps k s.gain) s = .next t ∧ t.acc = BitVec.ofInt 24 x ∧ t.result.signed = x ∧
      t.rspValid = true ∧ t.rspStatus = 0#3 ∧ t.rspValue = t.result

/-! ### Invariants that every step keeps -/

/-- 10_state R25, R32: the gain register and the operand of a command in progress name a mode, SET_GAIN has stored its
operand, and the pulse and poll counters stand as the point of the read cycle says. -/
def Obligations.PulseInvKept : Prop :=
  ∀ s t : State, PulseInv s → step s = .next t → PulseInv t

/-- 40_sequencer R114: no bit of the accumulator stands above those shifted in since the cycle cleared it. -/
def Obligations.AccInvKept : Prop :=
  ∀ s t : State, AccInv s → step s = .next t → AccInv t

/-- 10_state R28 to R30, 60_exceptions R218: line ownership, clock level and chip mode agree with life and sequencer. What it
says inside a teardown rests on the model's placement of the write of life, log entry 7. -/
def Obligations.LineInvKept : Prop :=
  ∀ s t : State, LineInv s → step s = .next t → LineInv t

/-- 30_encoding R78, 60_exceptions R200: the response port shows the last response until the next acceptance, every value has
width W, and every response that is not OK has value 0. -/
def Obligations.ResponseInvKept : Prop :=
  ∀ s t : State, ResponseInv s → step s = .next t → ResponseInv t

/-- The four invariants hold right after reset, for every choice of the parameters. -/
def Obligations.InvariantsAtReset : Prop :=
  ∀ p : Params, PulseInv (State.resetWith p) ∧ AccInv (State.resetWith p) ∧ LineInv (State.resetWith p) ∧
    ResponseInv (State.resetWith p)

/-- 10_state R29: between commands of a READY session the clock is low and both lines are held; in a state that meets the line
invariant, every `LineRead` finds the data line held and every clock write the clock line (40_sequencer R101, R102). -/
def Obligations.LinesHeldWhenUsed : Prop :=
  ∀ s t : State, LineInv s → step s = .next t →
    (t.life = .ready → t.seq = .idle → t.clockLevel = .low ∧ t.dataOwned = true ∧ t.clockOwned = true) ∧
    (t.trace = s.trace ++ [.rd s.nextData] → s.dataOwned = true) ∧
    (∀ v, t.trace = s.trace ++ [.wr v s.nextCap] → s.clockOwned = true)

/-- 10_state R30: the lines held in READY and FAULTED, and none in UNINIT at rest. The one place where the spec's own
pseudocode holds fewer lines in READY or FAULTED is inside the teardown of INIT or RELEASE (41_session R131, R139 write
life after the releases): that life is kept there is the model's placement, log entry 7. -/
def Obligations.OwnedByLife : Prop :=
  ∀ s : State, LineInv s →
    (s.life = .ready ∨ s.life = .faulted →
      owns s true true ∨
      (owns s true false ∧ ((∃ g, s.seq = .busy (.instr (.init g)) (.tear .data)) ∨
        s.seq = .busy (.instr .release) (.tear .data))) ∨
      (owns s false false ∧ ∃ g, s.seq = .busy (.instr (.init g)) .cfgData)) ∧
    (s.life = .uninit → s.seq = .idle → owns s false false)

/-! ### Rules about the whole machine -/

/-- 60_exceptions R220, R200, R205: which status each command can end with, and the life state before and after it. -/
def Obligations.ResponseTable : Prop :=
  ∀ (s t : State) (c : Cmd) (p : Point), LineInv s → s.seq = .busy c p → step s = .next t → t.seq = .idle →
    match c with
    | .reserved _ => t.rspStatus = Status.invalidArgument.code ∧ t.life = s.life
    | .instr (.init _) =>
      (t.rspStatus = Status.ok.code ∧ t.life = .ready) ∨ (t.rspStatus = Status.pinInitError.code ∧ t.life = .uninit)
    | .instr .release => t.rspStatus = Status.ok.code ∧ t.life = .uninit
    | .instr _ =>
      (t.rspStatus = Status.notInitialized.code ∧ s.life = .uninit ∧ t.life = .uninit) ∨
      (t.rspStatus = Status.deviceFaulted.code ∧ s.life ≠ .uninit ∧ t.life = .faulted) ∨
      (t.rspStatus = Status.timeout.code ∧ s.params.readyPollLimit ≠ none ∧ s.life = .ready ∧ t.life = .ready) ∨
      (t.rspStatus = Status.ok.code ∧ s.life = .ready ∧ t.life = .ready)

/-- 10_state R22: what writes `life`. -/
def Obligations.LifeWriters : Prop :=
  ∀ s t : State, step s = .next t → t.life ≠ s.life →
    (∃ g p, s.seq = .busy (.instr (.init g)) p ∧
      ((t.life = .ready ∧ t.seq = .idle ∧ t.rspStatus = Status.ok.code) ∨ t.life = .uninit)) ∨
    (∃ p, s.seq = .busy (.instr .release) p ∧ t.life = .uninit ∧ t.seq = .idle ∧ t.rspStatus = Status.ok.code) ∨
    (∃ i p, s.seq = .busy (.instr i) p ∧ (i = .read ∨ ∃ g, i = .setGain g) ∧ t.life = .faulted ∧ t.seq = .idle ∧
      t.rspStatus = Status.deviceFaulted.code)

/-- 60_exceptions R211: FAULTED is left only by INIT or RELEASE, and UNINIT only by an INIT that succeeds. -/
def Obligations.Recovery : Prop :=
  ∀ s t : State, LineInv s → step s = .next t →
    (s.life = .faulted → t.life ≠ .faulted →
      (∃ g p, s.seq = .busy (.instr (.init g)) p) ∨ (∃ p, s.seq = .busy (.instr .release) p ∧ t.life = .uninit)) ∧
    (s.life = .uninit → t.life ≠ .uninit →
      ∃ g, s.seq = .busy (.instr (.init g)) .driveLow ∧ t.life = .ready ∧ t.gain = g ∧ t.rspStatus = Status.ok.code)

/-- 10_state R23: only INIT, when it succeeds, and SET_GAIN, when it begins in READY, write `gain`, with their operand. -/
def Obligations.GainWriters : Prop :=
  ∀ s t : State, step s = .next t → t.gain ≠ s.gain →
    (∃ g, s.seq = .busy (.instr (.init g)) .driveLow ∧ t.gain = g ∧ t.life = .ready ∧ t.rspStatus = Status.ok.code) ∨
    (∃ g p, s.seq = .busy (.instr (.setGain g)) p ∧ (∀ q, p ≠ .cyc q) ∧ s.life = .ready ∧ t.gain = g)

/-- 10_state R27: only a READ that responds OK writes `result`, with the sign extension of the accumulator, and returns it. -/
def Obligations.ResultWriters : Prop :=
  ∀ s t : State, step s = .next t → t.result ≠ s.result →
    ∃ j, s.seq = .busy (.instr .read) (.cyc (.ml j)) ∧ t.seq = .idle ∧ t.rspStatus = Status.ok.code ∧
      t.result = ⟨s.params.w, s.acc.signExtend s.params.w⟩ ∧ t.rspValue = t.result

/-- 10_state R26: only the read cycle writes `acc`: a poll that reads 0 clears it, a sample shifts one bit in. -/
def Obligations.AccWriters : Prop :=
  ∀ s t : State, step s = .next t → t.acc ≠ s.acc →
    ∃ i p, s.seq = .busy (.instr i) p ∧ (i = .read ∨ ∃ g, i = .setGain g) ∧
      ((s.nextData = .bit false ∧ t.acc = 0#24 ∧ t.seq = .busy (.instr i) (.cyc (.dh 0))) ∨
       (∃ k b, p = .cyc (.ds k) ∧ s.nextData = .bit b ∧ t.acc = BitVec.ofNat 24 (2 * s.acc.toNat + b.toNat)))

/-- 10_state R28: what writes `chip_mode`: the last primitive of a read cycle with mode `g` sets it to `g`; INIT, RELEASE and
a fault set it to UNKNOWN. -/
def Obligations.ChipModeWriters : Prop :=
  ∀ s t : State, step s = .next t → t.chipMode ≠ s.chipMode →
    (∃ i g j, AtCycle i g (.ml j) s ∧ g.toNat ≤ j ∧ s.nextCap = .ok ∧ t.chipMode = .known g) ∨
    (t.chipMode = .unknown ∧ ∃ i p, s.seq = .busy (.instr i) p ∧
      ((∃ g, i = .init g) ∨ i = .release ∨ (t.life = .faulted ∧ t.rspStatus = Status.deviceFaulted.code)))

/-- 40_sequencer R100, R102, R104; 10_state R29, R30: what each line primitive does to the line state, read off the event it
records, and that nothing else writes the line state. -/
def Obligations.LineStateWriters : Prop :=
  ∀ s t : State, step s = .next t →
    (∀ v, t.trace = s.trace ++ [.wr v .ok] → t.clockLevel = if v then .high else .low) ∧
    (∀ v, t.trace = s.trace ++ [.wr v .err] → t.clockLevel = .unknown) ∧
    (∀ r, t.trace = s.trace ++ [.rel .clock r] → t.clockLevel = .undriven ∧ t.clockOwned = false) ∧
    (∀ r, t.trace = s.trace ++ [.rel .data r] → t.dataOwned = false) ∧
    (t.trace = s.trace ++ [.cfg .data .input .ok] → t.dataOwned = true) ∧
    (t.trace = s.trace ++ [.cfg .clock .output .ok] → t.clockOwned = true) ∧
    (t.clockLevel ≠ s.clockLevel → ∃ r, (∃ v, t.trace = s.trace ++ [.wr v r]) ∨ t.trace = s.trace ++ [.rel .clock r]) ∧
    (t.clockOwned ≠ s.clockOwned →
      t.trace = s.trace ++ [.cfg .clock .output .ok] ∨ ∃ r, t.trace = s.trace ++ [.rel .clock r]) ∧
    (t.dataOwned ≠ s.dataOwned →
      t.trace = s.trace ++ [.cfg .data .input .ok] ∨ ∃ r, t.trace = s.trace ++ [.rel .data r])

/-- 10_state R20, R28: no command reads the shadow fields: a step of a state without them does the same to all the rest. -/
def Obligations.ShadowNotRead : Prop :=
  ∀ s t : State, step s = .next t →
    ∃ t', step (forgetShadow s) = .next t' ∧ forgetShadow t' = forgetShadow t

/-- 10_state R34, R36, R37: no step writes the parameters, and the histories only grow. -/
def Obligations.ParamsAndHistory : Prop :=
  ∀ s t : State, step s = .next t → t.params = s.params ∧ s.trace <+: t.trace ∧ s.responses <+: t.responses

/-- Frame of INIT and RELEASE (41_session R131, R139, "Not written"): the accumulator, the result, the counters, the data
draws, the waiting commands and the parameters are unchanged; RELEASE leaves the gain, INIT writes only its own operand. -/
def Obligations.SessionFrame : Prop :=
  ∀ (i : Instr) (s t : State), (i = .release ∨ ∃ g, i = .init g) → exec i s = .next t →
    t.acc = s.acc ∧ t.result = s.result ∧ t.n = s.n ∧ t.polls = s.polls ∧ t.dataDraws = s.dataDraws ∧
    t.pending = s.pending ∧ t.params = s.params ∧
    (t.gain = s.gain ∨ ∃ g, i = .init g ∧ t.gain = g)

/-- Frame of READ and SET_GAIN (42_read R151, R161, "Not written"): the ownership of the lines, the waiting commands and the
parameters are unchanged; life only becomes FAULTED; READ leaves the gain; SET_GAIN leaves the result and writes only its own
operand into the gain; the clock level changes only with a clock write. -/
def Obligations.ReadFrame : Prop :=
  ∀ (i : Instr) (s t : State), (i = .read ∨ ∃ g, i = .setGain g) → exec i s = .next t →
    t.dataOwned = s.dataOwned ∧ t.clockOwned = s.clockOwned ∧ t.pending = s.pending ∧ t.params = s.params ∧
    (t.life = s.life ∨ t.life = .faulted) ∧
    (i = .read → t.gain = s.gain) ∧
    (∀ g, i = .setGain g → t.result = s.result ∧ (t.gain = s.gain ∨ t.gain = g)) ∧
    (t.clockLevel = s.clockLevel ∨ ∃ v, t.trace = s.trace ++ [.wr v s.nextCap])
end

