-- ==== Sys2Proof/Laws/State.lean ====
section
/-! SUPPORT. One lemma per field of `State` and named update: what the update writes, and that it leaves every other field
as it is. Each holds by unfolding the update once; later proofs use these and unfold none. -/

namespace Sys2Proof.Machine

/-! `popCap` -/

@[simp] theorem State.popCap_params (s : State) : s.popCap.params = s.params := rfl
@[simp] theorem State.popCap_life (s : State) : s.popCap.life = s.life := rfl
@[simp] theorem State.popCap_gain (s : State) : s.popCap.gain = s.gain := rfl
@[simp] theorem State.popCap_acc (s : State) : s.popCap.acc = s.acc := rfl
@[simp] theorem State.popCap_result (s : State) : s.popCap.result = s.result := rfl
@[simp] theorem State.popCap_chipMode (s : State) : s.popCap.chipMode = s.chipMode := rfl
@[simp] theorem State.popCap_clockLevel (s : State) : s.popCap.clockLevel = s.clockLevel := rfl
@[simp] theorem State.popCap_dataOwned (s : State) : s.popCap.dataOwned = s.dataOwned := rfl
@[simp] theorem State.popCap_clockOwned (s : State) : s.popCap.clockOwned = s.clockOwned := rfl
@[simp] theorem State.popCap_seq (s : State) : s.popCap.seq = s.seq := rfl
@[simp] theorem State.popCap_n (s : State) : s.popCap.n = s.n := rfl
@[simp] theorem State.popCap_polls (s : State) : s.popCap.polls = s.polls := rfl
@[simp] theorem State.popCap_trace (s : State) : s.popCap.trace = s.trace := rfl
@[simp] theorem State.popCap_responses (s : State) : s.popCap.responses = s.responses := rfl
@[simp] theorem State.popCap_rspValid (s : State) : s.popCap.rspValid = s.rspValid := rfl
@[simp] theorem State.popCap_rspStatus (s : State) : s.popCap.rspStatus = s.rspStatus := rfl
@[simp] theorem State.popCap_rspValue (s : State) : s.popCap.rspValue = s.rspValue := rfl
@[simp] theorem State.popCap_pending (s : State) : s.popCap.pending = s.pending := rfl
@[simp] theorem State.popCap_capDraws (s : State) : s.popCap.capDraws = s.capDraws.tail := rfl
@[simp] theorem State.popCap_dataDraws (s : State) : s.popCap.dataDraws = s.dataDraws := rfl
@[simp] theorem State.popCap_freeCount (s : State) :
    s.popCap.freeCount = if s.capDraws.isEmpty then s.freeCount + 1 else s.freeCount := rfl

/-! `popData` -/

@[simp] theorem State.popData_params (s : State) : s.popData.params = s.params := rfl
@[simp] theorem State.popData_life (s : State) : s.popData.life = s.life := rfl
@[simp] theorem State.popData_gain (s : State) : s.popData.gain = s.gain := rfl
@[simp] theorem State.popData_acc (s : State) : s.popData.acc = s.acc := rfl
@[simp] theorem State.popData_result (s : State) : s.popData.result = s.result := rfl
@[simp] theorem State.popData_chipMode (s : State) : s.popData.chipMode = s.chipMode := rfl
@[simp] theorem State.popData_clockLevel (s : State) : s.popData.clockLevel = s.clockLevel := rfl
@[simp] theorem State.popData_dataOwned (s : State) : s.popData.dataOwned = s.dataOwned := rfl
@[simp] theorem State.popData_clockOwned (s : State) : s.popData.clockOwned = s.clockOwned := rfl
@[simp] theorem State.popData_seq (s : State) : s.popData.seq = s.seq := rfl
@[simp] theorem State.popData_n (s : State) : s.popData.n = s.n := rfl
@[simp] theorem State.popData_polls (s : State) : s.popData.polls = s.polls := rfl
@[simp] theorem State.popData_trace (s : State) : s.popData.trace = s.trace := rfl
@[simp] theorem State.popData_responses (s : State) : s.popData.responses = s.responses := rfl
@[simp] theorem State.popData_rspValid (s : State) : s.popData.rspValid = s.rspValid := rfl
@[simp] theorem State.popData_rspStatus (s : State) : s.popData.rspStatus = s.rspStatus := rfl
@[simp] theorem State.popData_rspValue (s : State) : s.popData.rspValue = s.rspValue := rfl
@[simp] theorem State.popData_pending (s : State) : s.popData.pending = s.pending := rfl
@[simp] theorem State.popData_capDraws (s : State) : s.popData.capDraws = s.capDraws := rfl
@[simp] theorem State.popData_dataDraws (s : State) : s.popData.dataDraws = s.dataDraws.tail := rfl
@[simp] theorem State.popData_freeCount (s : State) :
    s.popData.freeCount = if s.dataDraws.isEmpty then s.freeCount + 1 else s.freeCount := rfl

/-! `record` -/

@[simp] theorem State.record_params (e : Event) (s : State) : (s.record e).params = s.params := rfl
@[simp] theorem State.record_life (e : Event) (s : State) : (s.record e).life = s.life := rfl
@[simp] theorem State.record_gain (e : Event) (s : State) : (s.record e).gain = s.gain := rfl
@[simp] theorem State.record_acc (e : Event) (s : State) : (s.record e).acc = s.acc := rfl
@[simp] theorem State.record_result (e : Event) (s : State) : (s.record e).result = s.result := rfl
@[simp] theorem State.record_chipMode (e : Event) (s : State) : (s.record e).chipMode = s.chipMode := rfl
@[simp] theorem State.record_clockLevel (e : Event) (s : State) : (s.record e).clockLevel = s.clockLevel := rfl
@[simp] theorem State.record_dataOwned (e : Event) (s : State) : (s.record e).dataOwned = s.dataOwned := rfl
@[simp] theorem State.record_clockOwned (e : Event) (s : State) : (s.record e).clockOwned = s.clockOwned := rfl
@[simp] theorem State.record_seq (e : Event) (s : State) : (s.record e).seq = s.seq := rfl
@[simp] theorem State.record_n (e : Event) (s : State) : (s.record e).n = s.n := rfl
@[simp] theorem State.record_polls (e : Event) (s : State) : (s.record e).polls = s.polls := rfl
@[simp] theorem State.record_trace (e : Event) (s : State) : (s.record e).trace = s.trace ++ [e] := rfl
@[simp] theorem State.record_responses (e : Event) (s : State) : (s.record e).responses = s.responses := rfl
@[simp] theorem State.record_rspValid (e : Event) (s : State) : (s.record e).rspValid = s.rspValid := rfl
@[simp] theorem State.record_rspStatus (e : Event) (s : State) : (s.record e).rspStatus = s.rspStatus := rfl
@[simp] theorem State.record_rspValue (e : Event) (s : State) : (s.record e).rspValue = s.rspValue := rfl
@[simp] theorem State.record_pending (e : Event) (s : State) : (s.record e).pending = s.pending := rfl
@[simp] theorem State.record_capDraws (e : Event) (s : State) : (s.record e).capDraws = s.capDraws := rfl
@[simp] theorem State.record_dataDraws (e : Event) (s : State) : (s.record e).dataDraws = s.dataDraws := rfl
@[simp] theorem State.record_freeCount (e : Event) (s : State) : (s.record e).freeCount = s.freeCount := rfl

/-! `respond` -/

@[simp] theorem State.respond_params (st : Status) (v : PortVal) (s : State) :
    (s.respond st v).params = s.params := rfl
@[simp] theorem State.respond_life (st : Status) (v : PortVal) (s : State) : (s.respond st v).life = s.life := rfl
@[simp] theorem State.respond_gain (st : Status) (v : PortVal) (s : State) : (s.respond st v).gain = s.gain := rfl
@[simp] theorem State.respond_acc (st : Status) (v : PortVal) (s : State) : (s.respond st v).acc = s.acc := rfl
@[simp] theorem State.respond_result (st : Status) (v : PortVal) (s : State) :
    (s.respond st v).result = s.result := rfl
@[simp] theorem State.respond_chipMode (st : Status) (v : PortVal) (s : State) :
    (s.respond st v).chipMode = s.chipMode := rfl
@[simp] theorem State.respond_clockLevel (st : Status) (v : PortVal) (s : State) :
    (s.respond st v).clockLevel = s.clockLevel := rfl
@[simp] theorem State.respond_dataOwned (st : Status) (v : PortVal) (s : State) :
    (s.respond st v).dataOwned = s.dataOwned := rfl
@[simp] theorem State.respond_clockOwned (st : Status) (v : PortVal) (s : State) :
    (s.respond st v).clockOwned = s.clockOwned := rfl
@[simp] theorem State.respond_seq (st : Status) (v : PortVal) (s : State) : (s.respond st v).seq = .idle := rfl
@[simp] theorem State.respond_n (st : Status) (v : PortVal) (s : State) : (s.respond st v).n = s.n := rfl
@[simp] theorem State.respond_polls (st : Status) (v : PortVal) (s : State) : (s.respond st v).polls = s.polls := rfl
@[simp] theorem State.respond_trace (st : Status) (v : PortVal) (s : State) : (s.respond st v).trace = s.trace := rfl
@[simp] theorem State.respond_responses (st : Status) (v : PortVal) (s : State) :
    (s.respond st v).responses = s.responses ++ [⟨st, v⟩] := rfl
@[simp] theorem State.respond_rspValid (st : Status) (v : PortVal) (s : State) :
    (s.respond st v).rspValid = true := rfl
@[simp] theorem State.respond_rspStatus (st : Status) (v : PortVal) (s : State) :
    (s.respond st v).rspStatus = st.code := rfl
@[simp] theorem State.respond_rspValue (st : Status) (v : PortVal) (s : State) : (s.respond st v).rspValue = v := rfl
@[simp] theorem State.respond_pending (st : Status) (v : PortVal) (s : State) :
    (s.respond st v).pending = s.pending := rfl
@[simp] theorem State.respond_capDraws (st : Status) (v : PortVal) (s : State) :
    (s.respond st v).capDraws = s.capDraws := rfl
@[simp] theorem State.respond_dataDraws (st : Status) (v : PortVal) (s : State) :
    (s.respond st v).dataDraws = s.dataDraws := rfl
@[simp] theorem State.respond_freeCount (st : Status) (v : PortVal) (s : State) :
    (s.respond st v).freeCount = s.freeCount := rfl

/-! `answer` -/

@[simp] theorem State.answer_params (st : Status) (s : State) : (s.answer st).params = s.params := rfl
@[simp] theorem State.answer_life (st : Status) (s : State) : (s.answer st).life = s.life := rfl
@[simp] theorem State.answer_gain (st : Status) (s : State) : (s.answer st).gain = s.gain := rfl
@[simp] theorem State.answer_acc (st : Status) (s : State) : (s.answer st).acc = s.acc := rfl
@[simp] theorem State.answer_result (st : Status) (s : State) : (s.answer st).result = s.result := rfl
@[simp] theorem State.answer_chipMode (st : Status) (s : State) : (s.answer st).chipMode = s.chipMode := rfl
@[simp] theorem State.answer_clockLevel (st : Status) (s : State) : (s.answer st).clockLevel = s.clockLevel := rfl
@[simp] theorem State.answer_dataOwned (st : Status) (s : State) : (s.answer st).dataOwned = s.dataOwned := rfl
@[simp] theorem State.answer_clockOwned (st : Status) (s : State) : (s.answer st).clockOwned = s.clockOwned := rfl
@[simp] theorem State.answer_seq (st : Status) (s : State) : (s.answer st).seq = .idle := rfl
@[simp] theorem State.answer_n (st : Status) (s : State) : (s.answer st).n = s.n := rfl
@[simp] theorem State.answer_polls (st : Status) (s : State) : (s.answer st).polls = s.polls := rfl
@[simp] theorem State.answer_trace (st : Status) (s : State) : (s.answer st).trace = s.trace := rfl
@[simp] theorem State.answer_responses (st : Status) (s : State) :
    (s.answer st).responses = s.responses ++ [⟨st, PortVal.zero s.params.w⟩] := rfl
@[simp] theorem State.answer_rspValid (st : Status) (s : State) : (s.answer st).rspValid = true := rfl
@[simp] theorem State.answer_rspStatus (st : Status) (s : State) : (s.answer st).rspStatus = st.code := rfl
@[simp] theorem State.answer_rspValue (st : Status) (s : State) :
    (s.answer st).rspValue = PortVal.zero s.params.w := rfl
@[simp] theorem State.answer_pending (st : Status) (s : State) : (s.answer st).pending = s.pending := rfl
@[simp] theorem State.answer_capDraws (st : Status) (s : State) : (s.answer st).capDraws = s.capDraws := rfl
@[simp] theorem State.answer_dataDraws (st : Status) (s : State) : (s.answer st).dataDraws = s.dataDraws := rfl
@[simp] theorem State.answer_freeCount (st : Status) (s : State) : (s.answer st).freeCount = s.freeCount := rfl

/-! `goto` -/

@[simp] theorem State.goto_params (c : Cmd) (p : Point) (s : State) : (s.goto c p).params = s.params := rfl
@[simp] theorem State.goto_life (c : Cmd) (p : Point) (s : State) : (s.goto c p).life = s.life := rfl
@[simp] theorem State.goto_gain (c : Cmd) (p : Point) (s : State) : (s.goto c p).gain = s.gain := rfl
@[simp] theorem State.goto_acc (c : Cmd) (p : Point) (s : State) : (s.goto c p).acc = s.acc := rfl
@[simp] theorem State.goto_result (c : Cmd) (p : Point) (s : State) : (s.goto c p).result = s.result := rfl
@[simp] theorem State.goto_chipMode (c : Cmd) (p : Point) (s : State) : (s.goto c p).chipMode = s.chipMode := rfl
@[simp] theorem State.goto_clockLevel (c : Cmd) (p : Point) (s : State) :
    (s.goto c p).clockLevel = s.clockLevel := rfl
@[simp] theorem State.goto_dataOwned (c : Cmd) (p : Point) (s : State) : (s.goto c p).dataOwned = s.dataOwned := rfl
@[simp] theorem State.goto_clockOwned (c : Cmd) (p : Point) (s : State) :
    (s.goto c p).clockOwned = s.clockOwned := rfl
@[simp] theorem State.goto_seq (c : Cmd) (p : Point) (s : State) : (s.goto c p).seq = .busy c p := rfl
@[simp] theorem State.goto_n (c : Cmd) (p : Point) (s : State) : (s.goto c p).n = s.n := rfl
@[simp] theorem State.goto_polls (c : Cmd) (p : Point) (s : State) : (s.goto c p).polls = s.polls := rfl
@[simp] theorem State.goto_trace (c : Cmd) (p : Point) (s : State) : (s.goto c p).trace = s.trace := rfl
@[simp] theorem State.goto_responses (c : Cmd) (p : Point) (s : State) : (s.goto c p).responses = s.responses := rfl
@[simp] theorem State.goto_rspValid (c : Cmd) (p : Point) (s : State) : (s.goto c p).rspValid = s.rspValid := rfl
@[simp] theorem State.goto_rspStatus (c : Cmd) (p : Point) (s : State) : (s.goto c p).rspStatus = s.rspStatus := rfl
@[simp] theorem State.goto_rspValue (c : Cmd) (p : Point) (s : State) : (s.goto c p).rspValue = s.rspValue := rfl
@[simp] theorem State.goto_pending (c : Cmd) (p : Point) (s : State) : (s.goto c p).pending = s.pending := rfl
@[simp] theorem State.goto_capDraws (c : Cmd) (p : Point) (s : State) : (s.goto c p).capDraws = s.capDraws := rfl
@[simp] theorem State.goto_dataDraws (c : Cmd) (p : Point) (s : State) : (s.goto c p).dataDraws = s.dataDraws := rfl
@[simp] theorem State.goto_freeCount (c : Cmd) (p : Point) (s : State) : (s.goto c p).freeCount = s.freeCount := rfl

/-! `closeTeardown` -/

@[simp] theorem closeTeardown_params (s : State) : (closeTeardown s).params = s.params := rfl
@[simp] theorem closeTeardown_life (s : State) : (closeTeardown s).life = .uninit := rfl
@[simp] theorem closeTeardown_gain (s : State) : (closeTeardown s).gain = s.gain := rfl
@[simp] theorem closeTeardown_acc (s : State) : (closeTeardown s).acc = s.acc := rfl
@[simp] theorem closeTeardown_result (s : State) : (closeTeardown s).result = s.result := rfl
@[simp] theorem closeTeardown_chipMode (s : State) : (closeTeardown s).chipMode = .unknown := rfl
@[simp] theorem closeTeardown_clockLevel (s : State) : (closeTeardown s).clockLevel = s.clockLevel := rfl
@[simp] theorem closeTeardown_dataOwned (s : State) : (closeTeardown s).dataOwned = s.dataOwned := rfl
@[simp] theorem closeTeardown_clockOwned (s : State) : (closeTeardown s).clockOwned = s.clockOwned := rfl
@[simp] theorem closeTeardown_seq (s : State) : (closeTeardown s).seq = s.seq := rfl
@[simp] theorem closeTeardown_n (s : State) : (closeTeardown s).n = s.n := rfl
@[simp] theorem closeTeardown_polls (s : State) : (closeTeardown s).polls = s.polls := rfl
@[simp] theorem closeTeardown_trace (s : State) : (closeTeardown s).trace = s.trace := rfl
@[simp] theorem closeTeardown_responses (s : State) : (closeTeardown s).responses = s.responses := rfl
@[simp] theorem closeTeardown_rspValid (s : State) : (closeTeardown s).rspValid = s.rspValid := rfl
@[simp] theorem closeTeardown_rspStatus (s : State) : (closeTeardown s).rspStatus = s.rspStatus := rfl
@[simp] theorem closeTeardown_rspValue (s : State) : (closeTeardown s).rspValue = s.rspValue := rfl
@[simp] theorem closeTeardown_pending (s : State) : (closeTeardown s).pending = s.pending := rfl
@[simp] theorem closeTeardown_capDraws (s : State) : (closeTeardown s).capDraws = s.capDraws := rfl
@[simp] theorem closeTeardown_dataDraws (s : State) : (closeTeardown s).dataDraws = s.dataDraws := rfl
@[simp] theorem closeTeardown_freeCount (s : State) : (closeTeardown s).freeCount = s.freeCount := rfl

/-! `cycleStart` -/

@[simp] theorem cycleStart_params (s : State) : (cycleStart s).params = s.params := rfl
@[simp] theorem cycleStart_life (s : State) : (cycleStart s).life = s.life := rfl
@[simp] theorem cycleStart_gain (s : State) : (cycleStart s).gain = s.gain := rfl
@[simp] theorem cycleStart_acc (s : State) : (cycleStart s).acc = s.acc := rfl
@[simp] theorem cycleStart_result (s : State) : (cycleStart s).result = s.result := rfl
@[simp] theorem cycleStart_chipMode (s : State) : (cycleStart s).chipMode = s.chipMode := rfl
@[simp] theorem cycleStart_clockLevel (s : State) : (cycleStart s).clockLevel = s.clockLevel := rfl
@[simp] theorem cycleStart_dataOwned (s : State) : (cycleStart s).dataOwned = s.dataOwned := rfl
@[simp] theorem cycleStart_clockOwned (s : State) : (cycleStart s).clockOwned = s.clockOwned := rfl
@[simp] theorem cycleStart_seq (s : State) : (cycleStart s).seq = s.seq := rfl
@[simp] theorem cycleStart_n (s : State) : (cycleStart s).n = 0 := rfl
@[simp] theorem cycleStart_polls (s : State) : (cycleStart s).polls = 0 := rfl
@[simp] theorem cycleStart_trace (s : State) : (cycleStart s).trace = s.trace := rfl
@[simp] theorem cycleStart_responses (s : State) : (cycleStart s).responses = s.responses := rfl
@[simp] theorem cycleStart_rspValid (s : State) : (cycleStart s).rspValid = s.rspValid := rfl
@[simp] theorem cycleStart_rspStatus (s : State) : (cycleStart s).rspStatus = s.rspStatus := rfl
@[simp] theorem cycleStart_rspValue (s : State) : (cycleStart s).rspValue = s.rspValue := rfl
@[simp] theorem cycleStart_pending (s : State) : (cycleStart s).pending = s.pending := rfl
@[simp] theorem cycleStart_capDraws (s : State) : (cycleStart s).capDraws = s.capDraws := rfl
@[simp] theorem cycleStart_dataDraws (s : State) : (cycleStart s).dataDraws = s.dataDraws := rfl
@[simp] theorem cycleStart_freeCount (s : State) : (cycleStart s).freeCount = s.freeCount := rfl

/-! `countPoll` -/

@[simp] theorem countPoll_params (s : State) : (countPoll s).params = s.params := rfl
@[simp] theorem countPoll_life (s : State) : (countPoll s).life = s.life := rfl
@[simp] theorem countPoll_gain (s : State) : (countPoll s).gain = s.gain := rfl
@[simp] theorem countPoll_acc (s : State) : (countPoll s).acc = s.acc := rfl
@[simp] theorem countPoll_result (s : State) : (countPoll s).result = s.result := rfl
@[simp] theorem countPoll_chipMode (s : State) : (countPoll s).chipMode = s.chipMode := rfl
@[simp] theorem countPoll_clockLevel (s : State) : (countPoll s).clockLevel = s.clockLevel := rfl
@[simp] theorem countPoll_dataOwned (s : State) : (countPoll s).dataOwned = s.dataOwned := rfl
@[simp] theorem countPoll_clockOwned (s : State) : (countPoll s).clockOwned = s.clockOwned := rfl
@[simp] theorem countPoll_seq (s : State) : (countPoll s).seq = s.seq := rfl
@[simp] theorem countPoll_n (s : State) : (countPoll s).n = s.n := rfl
@[simp] theorem countPoll_polls (s : State) : (countPoll s).polls = s.polls + 1 := rfl
@[simp] theorem countPoll_trace (s : State) : (countPoll s).trace = s.trace := rfl
@[simp] theorem countPoll_responses (s : State) : (countPoll s).responses = s.responses := rfl
@[simp] theorem countPoll_rspValid (s : State) : (countPoll s).rspValid = s.rspValid := rfl
@[simp] theorem countPoll_rspStatus (s : State) : (countPoll s).rspStatus = s.rspStatus := rfl
@[simp] theorem countPoll_rspValue (s : State) : (countPoll s).rspValue = s.rspValue := rfl
@[simp] theorem countPoll_pending (s : State) : (countPoll s).pending = s.pending := rfl
@[simp] theorem countPoll_capDraws (s : State) : (countPoll s).capDraws = s.capDraws := rfl
@[simp] theorem countPoll_dataDraws (s : State) : (countPoll s).dataDraws = s.dataDraws := rfl
@[simp] theorem countPoll_freeCount (s : State) : (countPoll s).freeCount = s.freeCount := rfl

/-! `present` -/

@[simp] theorem State.present_params (k : Nat) (w : Word) (s : State) : (s.present k w).params = s.params := rfl
@[simp] theorem State.present_life (k : Nat) (w : Word) (s : State) : (s.present k w).life = s.life := rfl
@[simp] theorem State.present_gain (k : Nat) (w : Word) (s : State) : (s.present k w).gain = s.gain := rfl
@[simp] theorem State.present_acc (k : Nat) (w : Word) (s : State) : (s.present k w).acc = s.acc := rfl
@[simp] theorem State.present_result (k : Nat) (w : Word) (s : State) : (s.present k w).result = s.result := rfl
@[simp] theorem State.present_chipMode (k : Nat) (w : Word) (s : State) : (s.present k w).chipMode = s.chipMode := rfl
@[simp] theorem State.present_clockLevel (k : Nat) (w : Word) (s : State) :
    (s.present k w).clockLevel = s.clockLevel := rfl
@[simp] theorem State.present_dataOwned (k : Nat) (w : Word) (s : State) :
    (s.present k w).dataOwned = s.dataOwned := rfl
@[simp] theorem State.present_clockOwned (k : Nat) (w : Word) (s : State) :
    (s.present k w).clockOwned = s.clockOwned := rfl
@[simp] theorem State.present_seq (k : Nat) (w : Word) (s : State) : (s.present k w).seq = s.seq := rfl
@[simp] theorem State.present_n (k : Nat) (w : Word) (s : State) : (s.present k w).n = s.n := rfl
@[simp] theorem State.present_polls (k : Nat) (w : Word) (s : State) : (s.present k w).polls = s.polls := rfl
@[simp] theorem State.present_trace (k : Nat) (w : Word) (s : State) : (s.present k w).trace = s.trace := rfl
@[simp] theorem State.present_responses (k : Nat) (w : Word) (s : State) :
    (s.present k w).responses = s.responses := rfl
@[simp] theorem State.present_rspValid (k : Nat) (w : Word) (s : State) : (s.present k w).rspValid = s.rspValid := rfl
@[simp] theorem State.present_rspStatus (k : Nat) (w : Word) (s : State) :
    (s.present k w).rspStatus = s.rspStatus := rfl
@[simp] theorem State.present_rspValue (k : Nat) (w : Word) (s : State) : (s.present k w).rspValue = s.rspValue := rfl
@[simp] theorem State.present_pending (k : Nat) (w : Word) (s : State) :
    (s.present k w).pending = s.pending.take k ++ w :: s.pending.drop k := rfl
@[simp] theorem State.present_capDraws (k : Nat) (w : Word) (s : State) : (s.present k w).capDraws = s.capDraws := rfl
@[simp] theorem State.present_dataDraws (k : Nat) (w : Word) (s : State) :
    (s.present k w).dataDraws = s.dataDraws := rfl
@[simp] theorem State.present_freeCount (k : Nat) (w : Word) (s : State) :
    (s.present k w).freeCount = s.freeCount := rfl

/-- `Settle()` writes no state (40_sequencer R105). -/
@[simp] theorem settle_eq (s : State) : settle s = s := rfl

end Sys2Proof.Machine
end

