-- ==== Sys2Proof/Laws/Ops.lean ====
section
/-! SUPPORT. What each shared operation does, said once: the line primitives by the result drawn, the steps of the read
cycle, teardown, and what the commands do with them. Later proofs rewrite with these. -/

namespace Sys2Proof.Machine

/-! ### Line primitives (40_sequencer R100 to R104) -/

theorem lineConfigure_ok {s : State} (l : Line) (d : Dir) (h : s.nextCap = .ok) :
    lineConfigure l d s = (.ok, { s.popCap.record (.cfg l d .ok) with
      dataOwned := s.dataOwned || decide (l = .data), clockOwned := s.clockOwned || decide (l = .clock) }) := by
  simp [lineConfigure, h]

theorem lineConfigure_err {s : State} (l : Line) (d : Dir) (h : s.nextCap = .err) :
    lineConfigure l d s = (.err, s.popCap.record (.cfg l d .err)) := by
  simp [lineConfigure, h, State.popCap, State.record]

theorem lineWrite_ok {s : State} (v : Bool) (h : s.nextCap = .ok) :
    lineWrite v s = (.ok, { s.popCap.record (.wr v .ok) with clockLevel := if v then .high else .low }) := by
  simp [lineWrite, levelAfter, h]

theorem lineWrite_err {s : State} (v : Bool) (h : s.nextCap = .err) :
    lineWrite v s = (.err, { s.popCap.record (.wr v .err) with clockLevel := .unknown }) := by
  simp [lineWrite, levelAfter, h]

theorem lineRead_eq {s : State} {r : DataResult} (h : s.nextData = r) :
    lineRead s = (r, s.popData.record (.rd r)) := by
  simp [lineRead, h]

theorem lineRelease_clock (s : State) :
    lineRelease .clock s = (s.nextCap, { s.popCap.record (.rel .clock s.nextCap) with
      clockOwned := false, clockLevel := .undriven }) := by
  simp [lineRelease, State.popCap, State.record]

theorem lineRelease_data (s : State) :
    lineRelease .data s = (s.nextCap, { s.popCap.record (.rel .data s.nextCap) with dataOwned := false }) := by
  simp [lineRelease, State.popCap, State.record]

/-! ### Teardown (41_session R138) -/

theorem heldLine_clock {s : State} (h : s.clockOwned = true) : s.heldLine = some .clock := by
  simp [State.heldLine, h]

theorem heldLine_data {s : State} (h : s.clockOwned = false) (hd : s.dataOwned = true) : s.heldLine = some .data := by
  simp [State.heldLine, h, hd]

theorem heldLine_none {s : State} (h : s.clockOwned = false) (hd : s.dataOwned = false) : s.heldLine = none := by
  simp [State.heldLine, h, hd]

theorem releaseNext_clock {s : State} (h : s.clockOwned = true) :
    releaseNext s = { s.popCap.record (.rel .clock s.nextCap) with clockOwned := false, clockLevel := .undriven } := by
  simp [releaseNext, heldLine_clock h, lineRelease_clock]

theorem releaseNext_data {s : State} (h : s.clockOwned = false) (hd : s.dataOwned = true) :
    releaseNext s = { s.popCap.record (.rel .data s.nextCap) with dataOwned := false } := by
  simp [releaseNext, heldLine_data h hd, lineRelease_data]

theorem releaseNext_none {s : State} (h : s.clockOwned = false) (hd : s.dataOwned = false) : releaseNext s = s := by
  simp [releaseNext, heldLine_none h hd]

/-! ### The read cycle (40_sequencer R120) -/

theorem readyPoll_zero {s : State} (h : s.nextData = .bit false) :
    readyPoll s = (.cont (.dh 0), { s.popData.record (.rd (.bit false)) with acc := 0#24 }) := by
  simp [readyPoll, lineRead_eq h]

theorem readyPoll_one {s : State} (h : s.nextData = .bit true) :
    readyPoll s = busyPoll (s.popData.record (.rd (.bit true))) := by
  simp [readyPoll, lineRead_eq h]

theorem readyPoll_err {s : State} (h : s.nextData = .err) :
    readyPoll s = (.faulted, s.popData.record (.rd .err)) := by
  simp [readyPoll, lineRead_eq h]

theorem busyPoll_wait {s : State} (h : ∀ l, s.params.readyPollLimit = some l → s.polls + 1 < l) :
    busyPoll s = (.cont .rw, countPoll s) := by
  rcases hl : s.params.readyPollLimit with _ | l
  · simp [busyPoll, pollLimitReached, hl]
  · simp [busyPoll, pollLimitReached, hl, Nat.not_le.mpr (h l hl)]

theorem busyPoll_limit {s : State} {l : Nat} (hl : s.params.readyPollLimit = some l) (h : l ≤ s.polls + 1) :
    busyPoll s = (.timeout, countPoll s) := by
  simp [busyPoll, pollLimitReached, hl, h]

/-- Everything `busyPoll` can do: it goes on below the limit, or times out at it. -/
theorem busyPoll_cases (s : State) :
    ((∀ l, s.params.readyPollLimit = some l → s.polls + 1 < l) ∧ busyPoll s = (.cont .rw, countPoll s)) ∨
    (∃ l, s.params.readyPollLimit = some l ∧ l ≤ s.polls + 1 ∧ busyPoll s = (.timeout, countPoll s)) := by
  by_cases h : ∀ l, s.params.readyPollLimit = some l → s.polls + 1 < l
  · exact .inl ⟨h, busyPoll_wait h⟩
  · push Not at h
    obtain ⟨l, hl, hle⟩ := h
    exact .inr ⟨l, hl, hle, busyPoll_limit hl hle⟩

/-- Whether or not it reaches the limit, a poll that reads 1 is counted, and that is all. -/
theorem busyPoll_state (s : State) : (busyPoll s).2 = countPoll s := by
  unfold busyPoll
  split <;> rfl

theorem pulseRise_ok {s : State} (next : CyclePoint) (h : s.nextCap = .ok) :
    pulseRise next s = (.cont next, { s.popCap.record (.wr true .ok) with clockLevel := .high }) := by
  simp [pulseRise, lineWrite_ok _ h]

theorem pulseRise_err {s : State} (next : CyclePoint) (h : s.nextCap = .err) :
    pulseRise next s = (.faulted, { s.popCap.record (.wr true .err) with clockLevel := .unknown }) := by
  simp [pulseRise, lineWrite_err _ h]

theorem sample_bit {s : State} {b : Bool} (next : CyclePoint) (h : s.nextData = .bit b) :
    sample next s = (.cont next, { s.popData.record (.rd (.bit b)) with acc := shiftIn s.acc b }) := by
  simp [sample, lineRead_eq h]

theorem sample_err {s : State} (next : CyclePoint) (h : s.nextData = .err) :
    sample next s = (.faulted, s.popData.record (.rd .err)) := by
  simp [sample, lineRead_eq h]

theorem pulseFall_ok {s : State} (after : State → CycleEnd × State) (h : s.nextCap = .ok) :
    pulseFall after s = after { s.popCap.record (.wr false .ok) with clockLevel := .low, n := s.n + 1 } := by
  simp [pulseFall, lineWrite_ok _ h]

theorem pulseFall_err {s : State} (after : State → CycleEnd × State) (h : s.nextCap = .err) :
    pulseFall after s = (.faulted, { s.popCap.record (.wr false .err) with clockLevel := .unknown }) := by
  simp [pulseFall, lineWrite_err _ h]

/-- Everything one step of the read cycle can do, beside its primitive's own writes: it goes on, ends, times out or
faults, and these fields it never writes. -/
theorem cycleStep_frame (g : GainCode) (p : CyclePoint) (s : State) :
    let t := (cycleStep g p s).2
    t.params = s.params ∧ t.life = s.life ∧ t.gain = s.gain ∧ t.result = s.result ∧ t.dataOwned = s.dataOwned ∧
    t.clockOwned = s.clockOwned ∧ t.seq = s.seq ∧ t.responses = s.responses ∧ t.rspValid = s.rspValid ∧
    t.rspStatus = s.rspStatus ∧ t.rspValue = s.rspValue ∧ t.pending = s.pending := by
  rcases hd : s.nextData with (_ | _) | _ <;> rcases hc : s.nextCap with _ | _ <;> cases p <;>
    simp [cycleStep, readyPoll_zero, readyPoll_one, readyPoll_err, pulseRise_ok, pulseRise_err, sample_bit, sample_err,
      pulseFall_ok, pulseFall_err, busyPoll_state, afterDataPulse, afterModePulse, hd, hc] <;> split <;> simp

/-! ### What READ does at the end of a cycle (42_read R151, R153, R154) -/

theorem readAfter_done {s : State} (h : ¬ (s.params.satRetry = true ∧ s.acc = s.params.satSentinel)) :
    readAfter (.done, s) = readDone s := by
  have hr : retries s = false := by simpa [retries] using h
  simp [readAfter, hr]

theorem readAfter_retry {s : State} (h : s.params.satRetry = true) (hs : s.acc = s.params.satSentinel) :
    readAfter (.done, s) = (cycleStart s).goto (.instr .read) (.cyc .rw) := by
  have hr : retries s = true := by simp [retries, h, hs]
  simp [readAfter, hr]

/-! ### Steps and runs -/

/-- Every instruction answers a next state: no meaning stops. -/
theorem exec_next (i : Instr) (s : State) : ∃ t, exec i s = .next t := by
  cases i <;> exact ⟨_, rfl⟩

theorem exec_init {g : GainCode} (s : State) (hg : g ≠ 0#2) : exec (.init g) s = .next (initStep g s) := by
  simp [exec, execInit, hg]

theorem exec_read (s : State) : exec .read s = .next (readStep s) := rfl

theorem exec_setGain {g : GainCode} (s : State) (hg : g ≠ 0#2) : exec (.setGain g) s = .next (setGainStep g s) := by
  simp [exec, execSetGain, hg]

theorem exec_release (s : State) : exec .release s = .next (releaseStep s) := rfl

/-- The step of a command in progress is the meaning of the command. -/
theorem step_busy {s : State} {i : Instr} {p : Point} (h : s.seq = .busy (.instr i) p) : step s = exec i s := by
  simp [step, h]

theorem readStep_cyc {s : State} {p : CyclePoint} (h : s.seq = .busy (.instr .read) (.cyc p)) :
    readStep s = readAfter (cycleStep s.gain p s) := by
  simp [readStep, h, Seq.point]

theorem setGainStep_cyc {s : State} {g : GainCode} {p : CyclePoint}
    (h : s.seq = .busy (.instr (.setGain g)) (.cyc p)) : setGainStep g s = setGainAfter g (cycleStep g p s) := by
  simp [setGainStep, h, Seq.point]

end Sys2Proof.Machine
end

