-- ==== Sys2Proof/Laws/Cases.lean ====
section
/-! SUPPORT. Everything a step can do, said once as case principles: to show a property of every result of a read-cycle
step, of INIT, RELEASE, READ, SET_GAIN or of `step` itself, show it in each of the listed cases. Invariants and frames
follow from these without unfolding a meaning. -/

namespace Sys2Proof.Machine

/-- The state after a `LineRead` that returned `r`: what every read leaves, before the command's own writes. -/
def afterRead (r : DataResult) (s : State) : State := s.popData.record (.rd r)

/-- The state after a `LineWrite(clock, v)` that returned `r`. -/
def afterWrite (v : Bool) (r : CapResult) (s : State) : State :=
  { s.popCap.record (.wr v r) with clockLevel := levelAfter v r }

/-- The clock writes of the read cycle: the point, and the level written there (40_sequencer R120). -/
inductive WritePoint : CyclePoint → Bool → Prop where
  | dh (i : Nat) : WritePoint (.dh i) true
  | dl (i : Nat) : WritePoint (.dl i) false
  | mh (j : Nat) : WritePoint (.mh j) true
  | ml (j : Nat) : WritePoint (.ml j) false

/-- The reads of the read cycle (40_sequencer R120). -/
inductive ReadPoint : CyclePoint → Prop where
  | rw : ReadPoint .rw
  | ds (i : Nat) : ReadPoint (.ds i)

/-- Everything a step of `ReadCycle(g)` can do (40_sequencer R120). -/
theorem cycleStep_rec {motive : CycleEnd × State → Prop} (g : GainCode) (p : CyclePoint) (s : State)
    (pollZero : p = .rw → s.nextData = .bit false →
      motive (.cont (.dh 0), { afterRead (.bit false) s with acc := 0#24 }))
    (pollOne : p = .rw → s.nextData = .bit true → (∀ l, s.params.readyPollLimit = some l → s.polls + 1 < l) →
      motive (.cont .rw, countPoll (afterRead (.bit true) s)))
    (pollLimit : ∀ l, p = .rw → s.nextData = .bit true → s.params.readyPollLimit = some l → l ≤ s.polls + 1 →
      motive (.timeout, countPoll (afterRead (.bit true) s)))
    (readErr : ReadPoint p → s.nextData = .err → motive (.faulted, afterRead .err s))
    (riseData : ∀ i, p = .dh i → s.nextCap = .ok → motive (.cont (.ds i), afterWrite true .ok s))
    (sampleBit : ∀ i b, p = .ds i → s.nextData = .bit b →
      motive (.cont (.dl i), { afterRead (.bit b) s with acc := shiftIn s.acc b }))
    (fallData : ∀ i, p = .dl i → s.nextCap = .ok → i < 23 →
      motive (.cont (.dh (i + 1)), { afterWrite false .ok s with n := s.n + 1 }))
    (fallLastData : ∀ i, p = .dl i → s.nextCap = .ok → ¬ i < 23 →
      motive (.cont (.mh 1), { afterWrite false .ok s with n := s.n + 1 }))
    (riseMode : ∀ j, p = .mh j → s.nextCap = .ok → motive (.cont (.ml j), afterWrite true .ok s))
    (fallMode : ∀ j, p = .ml j → s.nextCap = .ok → j < extra g →
      motive (.cont (.mh (j + 1)), { afterWrite false .ok s with n := s.n + 1 }))
    (fallLast : ∀ j, p = .ml j → s.nextCap = .ok → ¬ j < extra g →
      motive (.done, { afterWrite false .ok s with n := s.n + 1, chipMode := .known g }))
    (writeErr : ∀ v, WritePoint p v → s.nextCap = .err → motive (.faulted, afterWrite v .err s)) :
    motive (cycleStep g p s) := by
  rcases hd : s.nextData with (_ | _) | _ <;> rcases hc : s.nextCap with _ | _ <;> cases p
  case bit.false.ok.rw | bit.false.err.rw => rw [cycleStep, readyPoll_zero hd]; exact pollZero rfl hd
  case bit.true.ok.rw | bit.true.err.rw =>
    rw [cycleStep, readyPoll_one hd]
    rcases busyPoll_cases (s.popData.record (.rd (.bit true))) with ⟨hl, e⟩ | ⟨l, hl, hle, e⟩ <;> rw [e]
    · exact pollOne rfl hd hl
    · exact pollLimit l rfl hd hl hle
  case err.ok.rw | err.err.rw => rw [cycleStep, readyPoll_err hd]; exact readErr .rw hd
  case bit.false.ok.ds | bit.false.err.ds | bit.true.ok.ds | bit.true.err.ds =>
    rw [cycleStep, sample_bit _ hd]; exact sampleBit _ _ rfl hd
  case err.ok.ds | err.err.ds => rw [cycleStep, sample_err _ hd]; exact readErr (.ds _) hd
  case bit.false.ok.dh | bit.true.ok.dh | err.ok.dh => rw [cycleStep, pulseRise_ok _ hc]; exact riseData _ rfl hc
  case bit.false.err.dh | bit.true.err.dh | err.err.dh => rw [cycleStep, pulseRise_err _ hc]; exact writeErr _ (.dh _) hc
  case bit.false.ok.mh | bit.true.ok.mh | err.ok.mh => rw [cycleStep, pulseRise_ok _ hc]; exact riseMode _ rfl hc
  case bit.false.err.mh | bit.true.err.mh | err.err.mh => rw [cycleStep, pulseRise_err _ hc]; exact writeErr _ (.mh _) hc
  case bit.false.ok.dl | bit.true.ok.dl | err.ok.dl =>
    rw [cycleStep, pulseFall_ok _ hc, afterDataPulse]
    split
    · exact fallData _ rfl hc ‹_›
    · exact fallLastData _ rfl hc ‹_›
  case bit.false.err.dl | bit.true.err.dl | err.err.dl => rw [cycleStep, pulseFall_err _ hc]; exact writeErr _ (.dl _) hc
  case bit.false.ok.ml | bit.true.ok.ml | err.ok.ml =>
    rw [cycleStep, pulseFall_ok _ hc, afterModePulse]
    split
    · exact fallMode _ rfl hc ‹_›
    · exact fallLast _ rfl hc ‹_›
  case bit.false.err.ml | bit.true.err.ml | err.err.ml => rw [cycleStep, pulseFall_err _ hc]; exact writeErr _ (.ml _) hc

/-- The state once a `LineRelease` of `l` has been made, whatever it answered (40_sequencer R104). -/
def afterRelease (l : Line) (s : State) : State := (lineRelease l s).2

/-- Everything `releaseNext` can do: the clock if it is held, else the data line if it is held, else nothing. -/
theorem releaseNext_rec {motive : State → Prop} (s : State)
    (clock : s.clockOwned = true → motive (afterRelease .clock s))
    (data : s.clockOwned = false → s.dataOwned = true → motive (afterRelease .data s))
    (none : s.clockOwned = false → s.dataOwned = false → motive s) : motive (releaseNext s) := by
  rcases hc : s.clockOwned with _ | _
  · rcases hd : s.dataOwned with _ | _
    · rw [releaseNext_none hc hd]; exact none hc hd
    · simp only [releaseNext, heldLine_data hc hd]; exact data hc hd
  · simp only [releaseNext, heldLine_clock hc]; exact clock hc

/-- A held line, or none: what a teardown asks before each release (41_session R138). -/
theorem heldLine_cases (s : State) :
    (∃ l, s.heldLine = some l) ∨ (s.heldLine = none ∧ s.clockOwned = false ∧ s.dataOwned = false) := by
  rcases hc : s.clockOwned with _ | _
  · rcases hd : s.dataOwned with _ | _
    · exact .inr ⟨heldLine_none hc hd, rfl, rfl⟩
    · exact .inl ⟨_, heldLine_data hc hd⟩
  · exact .inl ⟨_, heldLine_clock hc⟩

/-- Everything RELEASE does once a release has been made (41_session R138, R139). -/
theorem releaseTorn_rec {motive : State → Prop} (s : State)
    (held : ∀ l, s.heldLine = some l → motive (s.goto (.instr .release) (.tear l)))
    (none : s.clockOwned = false → s.dataOwned = false → motive ((closeTeardown s).answer .ok)) :
    motive (releaseTorn s) := by
  rcases heldLine_cases s with ⟨l, hl⟩ | ⟨hn, hc, hd⟩
  · simpa only [releaseTorn, hl] using held l hl
  · simpa only [releaseTorn, hn] using none hc hd

/-- Everything RELEASE can do in a step (41_session R138 to R140): a release, after its first the one its point names, or
the response at once with no line held. -/
theorem releaseStep_rec {motive : State → Prop} (s : State)
    (tear : ∀ l, s.seq.point = .tear l → motive (releaseTorn (afterRelease l s)))
    (clock : (∀ l, s.seq.point ≠ .tear l) → s.clockOwned = true → motive (releaseTorn (afterRelease .clock s)))
    (data : (∀ l, s.seq.point ≠ .tear l) → s.clockOwned = false → s.dataOwned = true →
      motive (releaseTorn (afterRelease .data s)))
    (none : (∀ l, s.seq.point ≠ .tear l) → s.clockOwned = false → s.dataOwned = false →
      motive ((closeTeardown s).answer .ok)) : motive (releaseStep s) := by
  have begins : (∀ l, s.seq.point ≠ .tear l) → motive (releaseTorn (releaseNext s)) := by
    intro h
    refine releaseNext_rec (motive := fun u => motive (releaseTorn u)) s (clock h) (data h) ?_
    intro hc hd
    simpa only [releaseTorn, heldLine_none hc hd] using none h hc hd
  unfold releaseStep
  rcases hp : s.seq.point with _ | _ | l | _ | _ | _ | _
  case tear => exact tear l hp
  all_goals exact begins (by simp [hp])

/-- Everything INIT does at `fail` once the primitive that leads there has been made (41_session R135). -/
theorem initFail_rec {motive : State → Prop} (i : Instr) (s : State)
    (held : ∀ l, s.heldLine = some l → motive (s.goto (.instr i) (.failTear l)))
    (none : s.clockOwned = false → s.dataOwned = false → motive ((closeTeardown s).answer .pinInitError)) :
    motive (initFail i s) := by
  rcases heldLine_cases s with ⟨l, hl⟩ | ⟨hn, hc, hd⟩
  · simpa only [initFail, hl] using held l hl
  · simpa only [initFail, hn] using none hc hd

/-- Everything INIT does once a release of its first teardown has been made (41_session R133). -/
theorem initTorn_rec {motive : State → Prop} (i : Instr) (s : State)
    (held : ∀ l, s.heldLine = some l → motive (s.goto (.instr i) (.tear l)))
    (none : s.clockOwned = false → s.dataOwned = false → motive (s.goto (.instr i) .cfgData)) :
    motive (initTorn i s) := by
  rcases heldLine_cases s with ⟨l, hl⟩ | ⟨hn, hc, hd⟩
  · simpa only [initTorn, hl] using held l hl
  · simpa only [initTorn, hn] using none hc hd

/-- The points at which INIT begins: its start, and the points of a read cycle, which are none of its own (log entry 9). -/
inductive InitBegins : Point → Prop where
  | start : InitBegins .start
  | cyc (p : CyclePoint) : InitBegins (.cyc p)

/-- Everything INIT can do in a step (41_session R131 to R136): a release of its first teardown, one of its three
acquisitions, or a release at `fail`. -/
theorem initStep_rec {motive : State → Prop} (g : GainCode) (s : State)
    (tearFirst : ∀ l, InitBegins s.seq.point → s.life ≠ .uninit → s.heldLine = some l →
      motive (initTorn (.init g) (afterRelease l s)))
    (tear : ∀ l, s.seq.point = .tear l → motive (initTorn (.init g) (afterRelease l s)))
    (dataOk : ∀ u, u = endTeardown s →
      s.seq.point = .cfgData ∨ (InitBegins s.seq.point ∧ (s.life = .uninit ∨ s.heldLine = none)) → s.nextCap = .ok →
      motive (({ u.popCap.record (.cfg .data .input .ok) with dataOwned := true } : State).goto (.instr (.init g)) .cfgClock))
    (dataErr : ∀ u, u = endTeardown s →
      s.seq.point = .cfgData ∨ (InitBegins s.seq.point ∧ (s.life = .uninit ∨ s.heldLine = none)) → s.nextCap = .err →
      motive (initFail (.init g) (u.popCap.record (.cfg .data .input .err))))
    (clockOk : s.seq.point = .cfgClock → s.nextCap = .ok →
      motive (({ s.popCap.record (.cfg .clock .output .ok) with clockOwned := true } : State).goto
        (.instr (.init g)) .driveLow))
    (clockErr : s.seq.point = .cfgClock → s.nextCap = .err →
      motive (initFail (.init g) (s.popCap.record (.cfg .clock .output .err))))
    (lowOk : s.seq.point = .driveLow → s.nextCap = .ok → motive (initDone g (afterWrite false .ok s)))
    (lowErr : s.seq.point = .driveLow → s.nextCap = .err → motive (initFail (.init g) (afterWrite false .err s)))
    (failTear : ∀ l, s.seq.point = .failTear l → motive (initFail (.init g) (afterRelease l s))) :
    motive (initStep g s) := by
  have cap : (endTeardown s).nextCap = s.nextCap := by unfold endTeardown; split <;> rfl
  have acquire : s.seq.point = .cfgData ∨ (InitBegins s.seq.point ∧ (s.life = .uninit ∨ s.heldLine = none)) →
      motive (acquireData (.init g) (endTeardown s)) := by
    intro h
    rcases hc : s.nextCap with _ | _
    · rw [acquireData, lineConfigure_ok _ _ (cap.trans hc)]
      simpa using dataOk _ rfl h hc
    · rw [acquireData, lineConfigure_err _ _ (cap.trans hc)]
      exact dataErr _ rfl h hc
  have begins : InitBegins s.seq.point → motive (initBegin (.init g) s) := by
    intro h
    unfold initBegin
    rcases heldLine_cases s with ⟨l, hl⟩ | ⟨hn, -, -⟩
    · by_cases hu : s.life = .uninit
      · rw [if_neg (fun c => c.1 hu)]; exact acquire (.inr ⟨h, .inl hu⟩)
      · rw [if_pos ⟨hu, by simp [hl]⟩, releaseNext, hl]; exact tearFirst l h hu hl
    · rw [if_neg (fun c => c.2 hn)]; exact acquire (.inr ⟨h, .inr hn⟩)
  unfold initStep
  rcases hp : s.seq.point with _ | p | l | _ | _ | _ | l
  · exact begins (hp ▸ .start)
  · exact begins (hp ▸ .cyc p)
  · exact tear l hp
  · exact acquire (.inl hp)
  · rcases hc : s.nextCap with _ | _
    · simp only [acquireClock, lineConfigure_ok _ _ hc]; simpa using clockOk hp hc
    · simp only [acquireClock, lineConfigure_err _ _ hc]; exact clockErr hp hc
  · rcases hc : s.nextCap with _ | _
    · simp only [driveClockLow, lineWrite_ok _ hc]; exact lowOk hp hc
    · simp only [driveClockLow, lineWrite_err _ hc]; exact lowErr hp hc
  · exact failTear l hp

/-- Everything READ can do in a step (42_read R151, R152): the life check answers, or a step of the read cycle is made. -/
theorem readStep_rec {motive : State → Prop} (s : State)
    (cycle : ∀ p, s.seq.point = .cyc p → motive (readAfter (cycleStep s.gain p s)))
    (notInit : (∀ p, s.seq.point ≠ .cyc p) → s.life = .uninit → motive (s.answer .notInitialized))
    (faulted : (∀ p, s.seq.point ≠ .cyc p) → s.life = .faulted → motive (s.answer .deviceFaulted))
    (begins : (∀ p, s.seq.point ≠ .cyc p) → s.life = .ready →
      motive (readAfter (cycleStep s.gain .rw (cycleStart s)))) : motive (readStep s) := by
  have start : (∀ p, s.seq.point ≠ .cyc p) → motive (readBegin s) := by
    intro h
    rcases hl : s.life with _ | _ | _ <;> simp only [readBegin, whenReady, hl]
    · exact notInit h hl
    · exact begins h hl
    · exact faulted h hl
  unfold readStep
  rcases hp : s.seq.point with _ | p | _ | _ | _ | _ | _
  case cyc => exact cycle p hp
  all_goals exact start (by simp [hp])

/-- Everything SET_GAIN can do in a step (42_read R161, R162). -/
theorem setGainStep_rec {motive : State → Prop} (g : GainCode) (s : State)
    (cycle : ∀ p, s.seq.point = .cyc p → motive (setGainAfter g (cycleStep g p s)))
    (notInit : (∀ p, s.seq.point ≠ .cyc p) → s.life = .uninit → motive (s.answer .notInitialized))
    (faulted : (∀ p, s.seq.point ≠ .cyc p) → s.life = .faulted → motive (s.answer .deviceFaulted))
    (begins : (∀ p, s.seq.point ≠ .cyc p) → s.life = .ready →
      motive (setGainAfter g (cycleStep g .rw (cycleStart { s with gain := g })))) : motive (setGainStep g s) := by
  have start : (∀ p, s.seq.point ≠ .cyc p) → motive (setGainBegin g s) := by
    intro h
    rcases hl : s.life with _ | _ | _ <;> simp only [setGainBegin, whenReady, hl]
    · exact notInit h hl
    · simpa only [hl] using begins h hl
    · exact faulted h hl
  unfold setGainStep
  rcases hp : s.seq.point with _ | p | _ | _ | _ | _ | _
  case cyc => exact cycle p hp
  all_goals exact start (by simp [hp])

/-- Everything `step` can do: idle, an acceptance, the answer to a RESERVED word or to an operand 0, or a step of one of
the four commands. -/
theorem step_rec {motive : State → State → Prop}
    (idle : ∀ s, s.seq = .idle → s.pending = [] → motive s s)
    (accept : ∀ s w ws, s.seq = .idle → s.pending = w :: ws →
      motive s { s with pending := ws, rspValid := false, seq := .busy (decode w) .start })
    (reserved : ∀ s r p, s.seq = .busy (.reserved r) p → motive s (answerReserved s))
    (zeroGain : ∀ s i p, s.seq = .busy (.instr i) p → ¬ i.WellFormed → motive s (answerReserved s))
    (init : ∀ s g p, s.seq = .busy (.instr (.init g)) p → g ≠ 0#2 → motive s (initStep g s))
    (release : ∀ s p, s.seq = .busy (.instr .release) p → motive s (releaseStep s))
    (read : ∀ s p, s.seq = .busy (.instr .read) p → motive s (readStep s))
    (setGain : ∀ s g p, s.seq = .busy (.instr (.setGain g)) p → g ≠ 0#2 → motive s (setGainStep g s))
    (s t : State) (h : step s = .next t) : motive s t := by
  rcases hs : s.seq with _ | ⟨i | r, p⟩ <;> simp only [step, hs] at h
  · obtain rfl := Host.Outcome.next.inj h
    rcases hp : s.pending with _ | ⟨w, ws⟩ <;> simp only [State.accept, hp]
    · exact idle s hs hp
    · exact accept s w ws hs hp
  · cases i with
    | init g =>
      by_cases hg : g = 0#2
      · subst hg
        obtain rfl := Host.Outcome.next.inj h
        exact zeroGain s _ p hs (by decide)
      · rw [exec_init s hg] at h
        obtain rfl := Host.Outcome.next.inj h
        exact init s g p hs hg
    | read => obtain rfl := Host.Outcome.next.inj h; exact read s p hs
    | setGain g =>
      by_cases hg : g = 0#2
      · subst hg
        obtain rfl := Host.Outcome.next.inj h
        exact zeroGain s _ p hs (by decide)
      · rw [exec_setGain s hg] at h
        obtain rfl := Host.Outcome.next.inj h
        exact setGain s g p hs hg
    | release => obtain rfl := Host.Outcome.next.inj h; exact release s p hs
  · obtain rfl := Host.Outcome.next.inj h
    exact reserved s r p hs

end Sys2Proof.Machine
end

