-- ==== Sys2Proof/Laws/Decode.lean ====
section
/-! SUPPORT. What the decoder can answer with, for the step that accepts a word. -/

namespace Sys2Proof

/-- The decoder gives no gain operand 0 (30_encoding R74), so an accepted command is legal. -/
theorem decode_legal (w : Word) : Safety.CmdLegal (decode w) := by
  have h : ∀ w : Word, (match decode w with | .instr i => i.wellFormed | .reserved _ => true) = true := by decide
  have hw := h w
  split at hw
  · rename_i e; rw [e]; exact hw
  · rename_i e; rw [e]; trivial

/-- RSV of a packed word is 0 (30_encoding R70). -/
theorem packWord_rsv (g : GainCode) (op : BitVec 2) : (packWord g op).rsv = 0#4 := by
  revert g op; decide

/-- GAIN of a packed word (30_encoding R70, R72). -/
theorem packWord_gain (g : GainCode) (op : BitVec 2) : (packWord g op).gain = g := by
  revert g op; decide

/-- OP of a packed word (30_encoding R70). -/
theorem packWord_op (g : GainCode) (op : BitVec 2) : (packWord g op).op = op := by
  revert g op; decide

end Sys2Proof
end

