-- ==== Sys2Proof/Laws/PerInstr.lean ====
section
/-! SUPPORT. Statements made per instruction: the fields of the word that encodes it (30_encoding R70, R72, R73). -/

namespace Sys2Proof.Laws.Encoding

/-- RSV is 0, GAIN is the operand where there is one and else 0, and OP is the operation's code. -/
def Statement (i : Instr) : Prop :=
  (encode i).rsv = 0#4 ∧
  match i with
  | .init g => (encode i).gain = g ∧ (encode i).op = 0#2
  | .read => (encode i).gain = 0#2 ∧ (encode i).op = 1#2
  | .setGain g => (encode i).gain = g ∧ (encode i).op = 2#2
  | .release => (encode i).gain = 0#2 ∧ (encode i).op = 3#2

theorem init (g : GainCode) : Statement (.init g) :=
  ⟨packWord_rsv _ _, packWord_gain _ _, packWord_op _ _⟩

theorem read : Statement .read :=
  ⟨packWord_rsv _ _, packWord_gain _ _, packWord_op _ _⟩

theorem setGain (g : GainCode) : Statement (.setGain g) :=
  ⟨packWord_rsv _ _, packWord_gain _ _, packWord_op _ _⟩

theorem release : Statement .release :=
  ⟨packWord_rsv _ _, packWord_gain _ _, packWord_op _ _⟩

end Sys2Proof.Laws.Encoding
end

