-- ==== Sys2Proof/Laws/Runs.lean ====
section
/-! SUPPORT. Composing steps into runs, and the draws a run uses when they are listed. -/

namespace Sys2Proof.Safety

open Sys2Proof.Machine

theorem run_zero (s : State) : run 0 s = .next s := rfl

theorem run_succ {k : Nat} {s t : State} (h : step s = .next t) : run (k + 1) s = run k t := by
  simp [run, Host.Core.run, Sys2Proof.core, h]

/-- The same with the instruction in progress named. -/
theorem run_exec {k : Nat} {s t : State} {i : Instr} {p : Point} (hs : s.seq = .busy (.instr i) p)
    (h : exec i s = .next t) : run (k + 1) s = run k t :=
  run_succ (by rw [step_busy hs, h])

/-- No step stops, so every state has a successor; runs then compose. -/
theorem run_add {a b : Nat} {s t : State} (h : run a s = .next t) : run (a + b) s = run b t := by
  induction a generalizing s with
  | zero => rw [run_zero] at h; obtain rfl := Host.Outcome.next.inj h; rw [Nat.zero_add]
  | succ a ih =>
    have ⟨u, hu⟩ : ∃ u, step s = .next u := by
      unfold step
      split
      · exact ⟨_, rfl⟩
      · exact exec_next _ _
      · exact ⟨_, rfl⟩
    rw [run_succ hu] at h
    rw [Nat.add_right_comm, run_succ hu, ih h]

theorem nextCap_cons {s : State} {r : CapResult} {l : List CapResult} (h : s.capDraws = r :: l) : s.nextCap = r := by
  simp [State.nextCap, h]

theorem nextData_cons {s : State} {r : DataResult} {l : List DataResult} (h : s.dataDraws = r :: l) :
    s.nextData = r := by
  simp [State.nextData, h]

theorem drewCap_cons {s : State} {r : CapResult} {l : List CapResult} (e : Event) (h : s.capDraws = r :: l) :
    drewCap e s = { s with capDraws := l, trace := s.trace ++ [e] } := by
  simp [drewCap, h]

theorem drewData_cons {s : State} {r r' : DataResult} {l : List DataResult} (h : s.dataDraws = r' :: l) :
    drewData r s = { s with dataDraws := l, trace := s.trace ++ [.rd r] } := by
  simp [drewData, h]

/-! ### The premises on the draws (40_sequencer R103) -/

/-- `CapHealthy` gives the premise of every run whose draws are listed. -/
theorem CapHealthy.healthyFor {s : State} {m n : Nat} (h : CapHealthy s) (hm : m ≤ s.capDraws.length)
    (hn : n ≤ s.dataDraws.length) : HealthyFor m n s :=
  ⟨hm, hn, fun _ hr => h.1 _ (List.mem_of_mem_take hr), fun _ hr => h.2.1 _ (List.mem_of_mem_take hr)⟩

theorem CapHealthy.nextCap {s : State} (h : CapHealthy s) : s.nextCap = .ok := by
  have hne : s.nextCap ≠ .err := by
    rcases hl : s.capDraws with _ | ⟨r, l⟩
    · simpa [State.nextCap, hl] using (h.2.2 _ (Nat.le_refl _)).1
    · simpa [State.nextCap, hl] using h.1 r (by simp [hl])
  exact (eq_or_ne s.nextCap .ok).resolve_right fun ho => hne (by cases hc : s.nextCap <;> simp_all)

theorem CapHealthy.nextData {s : State} (h : CapHealthy s) : s.nextData ≠ .err := by
  rcases hl : s.dataDraws with _ | ⟨r, l⟩
  · simpa [State.nextData, hl] using (h.2.2 _ (Nat.le_refl _)).2
  · simpa [State.nextData, hl] using h.2.1 r (by simp [hl])

/-- Making a draw keeps `CapHealthy`: the draws that are left still hold no ERR. -/
theorem CapHealthy.popCap {s : State} (h : CapHealthy s) : CapHealthy s.popCap := by
  refine ⟨fun r hr => h.1 r (List.mem_of_mem_tail hr), h.2.1, fun k hk => h.2.2 k (Nat.le_trans ?_ hk)⟩
  rw [State.popCap_freeCount]
  split <;> omega

theorem CapHealthy.popData {s : State} (h : CapHealthy s) : CapHealthy s.popData := by
  refine ⟨h.1, fun r hr => h.2.1 r (List.mem_of_mem_tail hr), fun k hk => h.2.2 k (Nat.le_trans ?_ hk)⟩
  rw [State.popData_freeCount]
  split <;> omega

/-- The capability draws of a healthy run are all ok. -/
theorem HealthyFor.capDraws {s : State} {m n : Nat} (h : HealthyFor m n s) :
    s.capDraws = List.replicate m .ok ++ s.capDraws.drop m := by
  have hok : ∀ r : CapResult, r ≠ .err → r = .ok := by intro r hr; cases r <;> simp_all
  have ht : s.capDraws.take m = List.replicate m .ok :=
    List.eq_replicate_iff.mpr ⟨by simp [h.1], fun r hr => hok r (h.2.2.1 r hr)⟩
  rw [← ht, List.take_append_drop]

/-- The data draws of a read cycle: the ready-wait, then the bits the chip sends. -/
theorem ReadyAfter.dataDraws {s : State} {k : Nat} {raw : Raw} (h : ReadyAfter k s) (hc : ChipSends raw (k + 1) s) :
    s.dataDraws = List.replicate k (.bit true) ++ .bit false :: ((wireBits raw).map .bit ++ s.dataDraws.drop (k + 25)) := by
  have hd : s.dataDraws.drop (k + 25) = (s.dataDraws.drop (k + 1)).drop 24 := by rw [List.drop_drop]
  rw [hd, ← hc, List.take_append_drop, ← List.singleton_append, ← List.append_assoc, ← h, List.take_append_drop]

end Sys2Proof.Safety
end

