-- ==== Sys2Proof/Tests/Slice0.lean ====
section
/-! SUPPORT. The model's own tests: ill-formed terms, decoding of words written bit by bit, single steps with results from
spec/95_test_vectors.md and the rules' examples, and for each obligation with hypotheses a state that meets them. -/

namespace Sys2Proof.Tests

open Sys2Proof.Machine Sys2Proof.Safety

/-! ### WellFormed and Decode -/

theorem test_init_needs_gain : ¬ (Instr.init 0#2).WellFormed := by decide
theorem test_setGain_needs_gain : ¬ (Instr.setGain 0#2).WellFormed := by decide
theorem test_gains_wellFormed : ∀ g : GainCode, g ≠ 0#2 → (Instr.init g).WellFormed ∧ (Instr.setGain g).WellFormed := by
  decide

/-! The words of 30_encoding R75, as RSV GAIN OP. -/

theorem test_decode_init_a128 : decode 0b0000_01_00#8 = .instr (.init 1#2) := by decide
theorem test_decode_init_b32 : decode 0b0000_10_00#8 = .instr (.init 2#2) := by decide
theorem test_decode_init_a64 : decode 0b0000_11_00#8 = .instr (.init 3#2) := by decide
theorem test_decode_read : decode 0b0000_00_01#8 = .instr .read := by decide
theorem test_decode_setGain_a128 : decode 0b0000_01_10#8 = .instr (.setGain 1#2) := by decide
theorem test_decode_setGain_b32 : decode 0b0000_10_10#8 = .instr (.setGain 2#2) := by decide
theorem test_decode_setGain_a64 : decode 0b0000_11_10#8 = .instr (.setGain 3#2) := by decide
theorem test_decode_release : decode 0b0000_00_11#8 = .instr .release := by decide

/-! Reserved words of 95_test_vectors 2.1: 0x00, 0x02, 0x0D, 0x07, 0x11, 0xFF. -/

theorem test_decode_init_gain0 : decode 0b0000_00_00#8 = .reserved .missingGain := by decide
theorem test_decode_setGain_gain0 : decode 0b0000_00_10#8 = .reserved .missingGain := by decide
theorem test_decode_read_gain3 : decode 0b0000_11_01#8 = .reserved .strayGain := by decide
theorem test_decode_release_gain1 : decode 0b0000_01_11#8 = .reserved .strayGain := by decide
theorem test_decode_rsv1 : decode 0b0001_00_01#8 = .reserved .reservedBits := by decide
theorem test_decode_all_ones : decode 0b1111_11_11#8 = .reserved .reservedBits := by decide

/-- The host numbers the bits of a word as 30_encoding R70 does: 0x0C is INIT A64 and 0x81 is RESERVED. -/
theorem test_tableWord : decodeTableWord 8 0x0C = some (.init 3#2) ∧ decodeTableWord 8 0x81 = none := by decide

/-! ### States for single steps -/

/-- A READY session, both lines held and the clock low (41_session R136), with gain `g`. -/
def session (g : GainCode) : State :=
  { State.reset with life := .ready, gain := g, dataOwned := true, clockOwned := true, clockLevel := .low }

/-- `s` with the command `i` at the point `p`, and these draws to come. -/
def busyAt (s : State) (i : Instr) (p : Point) (caps : List CapResult) (data : List DataResult) : State :=
  { s with seq := .busy (.instr i) p, capDraws := caps, dataDraws := data }

/-- The data draws of a read cycle in which the chip is ready after `k` busy polls and sends `raw`. -/
def sends (k : Nat) (raw : Raw) : List DataResult :=
  List.replicate k (.bit true) ++ .bit false :: (wireBits raw).map .bit

/-- The state a step answers with. -/
def after (o : Host.Outcome State Fault Refusal) (s : State) : State :=
  match o with
  | .next t => t
  | .fault _ => s
  | .refused _ => s

/-! ### One step per test -/

/-- 41_session R136, R137: word 0x0C ends with gain 3, READY, clock LOW, (OK, 0). -/
theorem test_init_done :
    let s := busyAt { State.reset with dataOwned := true, clockOwned := true } (.init 3#2) .driveLow [.ok] []
    let t := after (exec (.init 3#2) s) s
    t.gain = 3#2 ∧ t.life = .ready ∧ t.clockLevel = .low ∧ t.rspStatus = 0#3 ∧ t.trace = [.wr false .ok] := by
  decide

/-- 95_test_vectors 2.8: data configure ERR: (PIN_INIT_ERROR, 0), one event, nothing to release. -/
theorem test_init_data_err :
    let s := busyAt State.reset (.init 2#2) .start [.err] []
    let t := after (exec (.init 2#2) s) s
    t.rspStatus = 1#3 ∧ t.gain = 1#2 ∧ t.life = .uninit ∧ t.trace = [.cfg .data .input .err] := by
  decide

/-- 40_sequencer R118, 95_test_vectors 2.2: raw 0xABCDEF is answered 0xFFABCDEF. -/
theorem test_read_done :
    let s := busyAt { session 1#2 with acc := 0xABCDEF#24 } .read (.cyc (.ml 1)) [.ok] []
    let t := after (exec .read s) s
    t.rspValue = ⟨32, 0xFFABCDEF#32⟩ ∧ t.result = t.rspValue ∧ t.rspStatus = 0#3 ∧ t.chipMode = .known 1#2 := by
  decide

/-- 95_test_vectors 2.6: ERR on the first poll: FAULTED, the clock still LOW, one event. -/
theorem test_read_poll_err :
    let s := busyAt (session 1#2) .read .start [] [.err]
    let t := after (exec .read s) s
    t.life = .faulted ∧ t.clockLevel = .low ∧ t.trace = [.rd .err] ∧ t.rspStatus = 2#3 ∧ t.clockOwned = true := by
  decide

/-- 95_test_vectors 2.7: with SAT_RETRY the commit read of SET_GAIN is not retried and its sample is discarded. -/
theorem test_setGain_no_retry :
    let s := busyAt { session 2#2 with acc := 0xFFFFFF#24, params := { Config.defaults with satRetry := true } }
      (.setGain 2#2) (.cyc (.ml 2)) [.ok] []
    let t := after (exec (.setGain 2#2) s) s
    t.rspStatus = 0#3 ∧ t.rspValue = ⟨32, 0#32⟩ ∧ t.result = ⟨32, 0#32⟩ ∧ t.seq = .idle := by
  decide

/-- 95_test_vectors 2.7: SET_GAIN in UNINIT: (NOT_INITIALIZED, 0), the gain unchanged. -/
theorem test_setGain_uninit :
    let s := busyAt State.reset (.setGain 2#2) .start [] []
    let t := after (exec (.setGain 2#2) s) s
    t.rspStatus = 5#3 ∧ t.gain = 1#2 ∧ t.trace = [] := by
  decide

/-- 41_session R141: a clock release that answers ERR is recorded, the clock counts as released, and RELEASE goes on. -/
theorem test_release_clock_err :
    let s := busyAt (session 1#2) .release .start [.err] []
    let t := after (exec .release s) s
    t.trace = [.rel .clock .err] ∧ t.clockOwned = false ∧ t.clockLevel = .undriven ∧
      t.seq = .busy (.instr .release) (.tear .data) := by
  decide

/-- 95_test_vectors 2.8: RELEASE right after reset: (OK, 0), UNINIT, no event. -/
theorem test_release_from_reset :
    let s := State.reset.withFetchWord 8 0x03
    let t := after (step s) s
    t.rspStatus = 0#3 ∧ t.rspValid = true ∧ t.life = .uninit ∧ t.trace = [] := by
  decide

/-- 95_test_vectors 2.9: in FAULTED the word 0x05 is answered INVALID_ARGUMENT, decode before life. -/
theorem test_reserved_faulted :
    let s := ({ session 1#2 with life := .faulted } : State).withFetchWord 8 0x05
    let t := after (step s) s
    t.rspStatus = 3#3 ∧ t.life = .faulted ∧ t.trace = [] := by
  decide

/-- 95_test_vectors 2.3: bits 1, 0, 1 and 21 zeros accumulate to 0xA00000. -/
theorem test_shift_in : (wireBits 0xA00000#24).take 3 = [true, false, true] ∧
    (wireBits 0xA00000#24).foldl shiftIn 0#24 = 0xA00000#24 := by
  decide

/-- 95_test_vectors 2.2: the W = 40 column, 0x800001 and 0x7FFFFF. -/
theorem test_sign_extend_40 : signExtend 40 0x800001#24 = ⟨40, 0xFFFF800001#40⟩ ∧
    signExtend 40 0x7FFFFF#24 = ⟨40, 0x00007FFFFF#40⟩ := by
  decide

/-! ### Witnesses: for each obligation with hypotheses, a state and operands that meet them together -/

/-- StepRunsInstruction, IdleWaits, ReservedAnswered: right after reset with the word 0x02 presented, and with none. -/
theorem witness_StepRunsInstruction_accept :
    let s := State.reset.present 0 0x02#8
    s.seq = .idle ∧ s.pending = [0x02#8] ∧ decode 0x02#8 = .reserved .missingGain := by
  decide

theorem witness_StepRunsInstruction_busy :
    (busyAt (session 1#2) .read (.cyc .rw) [] [.bit false]).seq = .busy (.instr .read) (.cyc .rw) := by
  decide

theorem witness_IdleWaits : State.reset.cmdReady = true ∧ State.reset.seq = .idle ∧ State.reset.cmdValid = false := by
  decide

theorem witness_ReservedAnswered :
    let s := ({ session 1#2 with life := .faulted } : State).present 0 0xFF#8
    s.seq = .idle ∧ s.pending = [0xFF#8] ∧ decode 0xFF#8 = .reserved .reservedBits := by
  decide

/-- CommandRunsAlone, OnePrimitivePerStep, HostsCannotInterfere, ParamsAndHistory, ShadowNotRead: a step that goes on. -/
theorem witness_step_goes_on :
    let s := busyAt (session 3#2) .read (.cyc (.dl 23)) [.ok] []
    let t := after (step s) s
    step s = .next t ∧ t.seq = .busy (.instr .read) (.cyc (.mh 1)) ∧ t.trace = s.trace ++ [.wr false s.nextCap] :=
  ⟨rfl, by decide, by decide⟩

/-- The same: a step that responds, after a `LineRead`. -/
theorem witness_step_responds :
    let s := busyAt (session 3#2) .read (.cyc (.ds 23)) [] [.err]
    let t := after (step s) s
    step s = .next t ∧ t.seq = .idle ∧ t.trace = s.trace ++ [.rd s.nextData] :=
  ⟨rfl, by decide, by decide⟩

/-! INIT and RELEASE. -/

theorem witness_InitAcquires_start :
    let s := busyAt State.reset (.init 3#2) .start [.ok] []
    s.nextCap = .ok ∧ s.seq = .busy (.instr (.init 3#2)) .start ∧ s.life = .uninit := by
  decide

theorem witness_InitAcquires_cfgClock :
    let s := busyAt State.reset (.init 1#2) .cfgClock [.ok] []
    s.nextCap = .ok ∧ s.seq = .busy (.instr (.init 1#2)) .cfgClock := by
  decide

theorem witness_InitAcquires_driveLow :
    let s := busyAt State.reset (.init 2#2) .driveLow [.ok] []
    s.nextCap = .ok ∧ s.seq = .busy (.instr (.init 2#2)) .driveLow := by
  decide

theorem witness_InitFails_start :
    let s := busyAt State.reset (.init 1#2) .start [.err] []
    s.nextCap = .err ∧ s.seq = .busy (.instr (.init 1#2)) .start ∧ s.life = .uninit ∧ owns s false false := by
  decide

theorem witness_InitFails_cfgData :
    let s := busyAt { State.reset with life := .faulted } (.init 1#2) .cfgData [.err] []
    s.nextCap = .err ∧ s.seq = .busy (.instr (.init 1#2)) .cfgData ∧ s.life ≠ .uninit ∧ owns s false false := by
  decide

theorem witness_InitFails_cfgClock :
    let s := busyAt { State.reset with dataOwned := true } (.init 1#2) .cfgClock [.err] []
    s.nextCap = .err ∧ s.seq = .busy (.instr (.init 1#2)) .cfgClock ∧ owns s true false := by
  decide

theorem witness_InitFails_driveLow :
    let s := busyAt { State.reset with dataOwned := true, clockOwned := true } (.init 3#2) .driveLow [.err] []
    s.nextCap = .err ∧ s.seq = .busy (.instr (.init 3#2)) .driveLow ∧ owns s true true := by
  decide

theorem witness_InitFailReleases_both :
    let s := busyAt { State.reset with dataOwned := true, clockOwned := true, clockLevel := .unknown } (.init 3#2)
      (.failTear .clock) [.err] []
    s.seq = .busy (.instr (.init 3#2)) (.failTear .clock) ∧ owns s true true := by
  decide

theorem witness_InitFailReleases_data :
    let s := busyAt { State.reset with dataOwned := true } (.init 3#2) (.failTear .data) [.ok] []
    s.seq = .busy (.instr (.init 3#2)) (.failTear .data) ∧ owns s true false := by
  decide

theorem witness_InitReconstructs_start :
    let s := busyAt (session 1#2) (.init 3#2) .start [.err] []
    s.life ≠ .uninit ∧ s.seq = .busy (.instr (.init 3#2)) .start ∧ owns s true true := by
  decide

theorem witness_InitReconstructs_tear :
    let s := busyAt { session 1#2 with clockOwned := false, clockLevel := .undriven } (.init 3#2) (.tear .data) [.ok] []
    s.life ≠ .uninit ∧ s.seq = .busy (.instr (.init 3#2)) (.tear .data) ∧ owns s true false := by
  decide

theorem witness_InitReconstructs_cfgData :
    let s := busyAt { State.reset with life := .faulted } (.init 3#2) .cfgData [.ok] []
    s.life ≠ .uninit ∧ s.seq = .busy (.instr (.init 3#2)) .cfgData ∧ s.nextCap = .ok := by
  decide

theorem witness_ReleaseSteps_both :
    let s := busyAt (session 1#2) .release .start [.ok] []
    s.seq = .busy (.instr .release) .start ∧ owns s true true := by
  decide

theorem witness_ReleaseSteps_clock :
    let s := busyAt { session 1#2 with dataOwned := false } .release .start [.ok] []
    s.seq = .busy (.instr .release) .start ∧ owns s false true := by
  decide

theorem witness_ReleaseSteps_data :
    let s := busyAt { session 1#2 with clockOwned := false, clockLevel := .undriven } .release (.tear .data) [.err] []
    s.seq = .busy (.instr .release) (.tear .data) ∧ s.heldLine = some .data ∧ owns s true false := by
  decide

theorem witness_ReleaseSteps_none :
    let s := busyAt State.reset .release .start [] []
    s.seq = .busy (.instr .release) .start ∧ owns s false false := by
  decide

theorem witness_InitRunFresh :
    let s := busyAt State.reset (.init 1#2) .start [.ok, .ok, .ok, .err] []
    s.seq = .busy (.instr (.init 1#2)) .start ∧ s.life = .uninit ∧ HealthyFor 3 0 s := by
  decide

theorem witness_InitRunAgain :
    let s := busyAt (session 1#2) (.init 3#2) .start [.err, .ok, .ok, .ok, .ok] []
    s.seq = .busy (.instr (.init 3#2)) .start ∧ s.life ≠ .uninit ∧ owns s true true ∧
      s.capDraws = .err :: .ok :: .ok :: .ok :: .ok :: [] := by
  decide

theorem witness_InitRunFails :
    let s (caps : List CapResult) := busyAt State.reset (.init 2#2) .start caps []
    (∀ caps, (s caps).seq = .busy (.instr (.init 2#2)) .start ∧ (s caps).life = .uninit ∧ owns (s caps) false false ∧
      (s caps).clockLevel = .undriven) ∧
    (s [.err]).capDraws = .err :: [] ∧ (s [.ok, .err, .ok]).capDraws = .ok :: .err :: .ok :: [] ∧
    (s [.ok, .ok, .err, .err, .ok]).capDraws = .ok :: .ok :: .err :: .err :: .ok :: [] :=
  ⟨fun _ => ⟨rfl, rfl, ⟨rfl, rfl⟩, rfl⟩, rfl, rfl, rfl⟩

theorem witness_ReleaseRun :
    let s := busyAt (session 1#2) .release .start [.err, .ok] []
    s.seq = .busy (.instr .release) .start ∧ owns s true true ∧ s.capDraws = .err :: .ok :: [] := by
  decide

/-! READ, SET_GAIN and the read cycle. -/

theorem witness_OutsideReady_read :
    let s := busyAt { session 1#2 with life := .faulted } .read .start [] []
    s.seq = .busy (.instr .read) .start ∧ s.life = .faulted ∧
      (busyAt State.reset .read .start [] []).life = .uninit := by
  decide

theorem witness_OutsideReady_setGain :
    let s := busyAt State.reset (.setGain 2#2) .start [] []
    s.seq = .busy (.instr (.setGain 2#2)) .start ∧ s.life = .uninit ∧ (2#2 : GainCode) ≠ 0#2 := by
  decide

theorem witness_CycleBegins :
    let s := busyAt (session 1#2) .read .start [] [.bit true]
    let u := busyAt (session 1#2) (.setGain 3#2) .start [] [.bit true]
    s.life = .ready ∧ s.seq = .busy (.instr .read) .start ∧ u.life = .ready ∧
      u.seq = .busy (.instr (.setGain 3#2)) .start := by
  decide

theorem witness_AtCycle_read (p : CyclePoint) (caps : List CapResult) (data : List DataResult) :
    AtCycle .read 3#2 p (busyAt (session 3#2) .read (.cyc p) caps data) :=
  ⟨rfl, .inl ⟨rfl, rfl⟩⟩

theorem witness_AtCycle_setGain (p : CyclePoint) (caps : List CapResult) (data : List DataResult) :
    AtCycle (.setGain 2#2) 2#2 p (busyAt (session 2#2) (.setGain 2#2) (.cyc p) caps data) :=
  ⟨rfl, .inr ⟨rfl, by decide⟩⟩

/-- ReadyPoll, beside `witness_AtCycle_read`: a poll that reads 0; one that reads 1 with no limit, one poll below the limit
2, and at it. -/
theorem witness_ReadyPoll :
    let s (d : DataResult) (lim : Option Nat) (k : Nat) : State :=
      busyAt { session 3#2 with params := { Config.defaults with readyPollLimit := lim }, polls := k } .read (.cyc .rw) [] [d]
    (s (.bit false) none 0).nextData = .bit false ∧
    (s (.bit true) none 5).nextData = .bit true ∧ (∀ l, (s (.bit true) none 5).params.readyPollLimit = some l → 5 + 1 < l) ∧
    (∀ l, (s (.bit true) (some 2) 0).params.readyPollLimit = some l → 0 + 1 < l) ∧
    (s (.bit true) (some 2) 1).params.readyPollLimit = some 2 ∧ 2 ≤ (s (.bit true) (some 2) 1).polls + 1 :=
  ⟨rfl, rfl, fun _ h => (Option.some_ne_none _ h.symm).elim, fun _ h => by obtain rfl := Option.some.inj h; decide, rfl,
    by decide⟩

/-- DataPulse at its first and last pulse, beside `witness_AtCycle_read`. -/
theorem witness_DataPulse :
    let s (p : CyclePoint) := busyAt (session 3#2) .read (.cyc p) [.ok] [.bit true]
    0 < 24 ∧ 23 < 24 ∧ (s (.dh 0)).nextCap = .ok ∧ (s (.dh 0)).seq = .busy (.instr .read) (.cyc (.dh 0)) ∧
    (s (.ds 23)).nextData = .bit true ∧ (s (.ds 23)).seq = .busy (.instr .read) (.cyc (.ds 23)) ∧
    (s (.dl 23)).nextCap = .ok ∧ (s (.dl 23)).seq = .busy (.instr .read) (.cyc (.dl 23)) := by
  decide

/-- ModePulse, beside `witness_AtCycle_setGain`: the first of the two mode pulses of B32. -/
theorem witness_ModePulse :
    let s (p : CyclePoint) := busyAt (session 2#2) (.setGain 2#2) (.cyc p) [.ok] []
    (s (.mh 1)).nextCap = .ok ∧ (s (.ml 1)).nextCap = .ok ∧ 1 < (2#2 : GainCode).toNat := by
  decide

/-- ReadCompletes: the last mode pulse of A64, an ordinary sample; and the sentinel with the guard off. -/
theorem witness_ReadCompletes :
    let s (a : Raw) := busyAt { session 3#2 with acc := a } .read (.cyc (.ml 3)) [.ok] []
    (s 0x7FFFFF#24).seq = .busy (.instr .read) (.cyc (.ml 3)) ∧ (s 0x7FFFFF#24).gain.toNat ≤ 3 ∧
    (s 0x7FFFFF#24).nextCap = .ok ∧ ¬ ((s 0x7FFFFF#24).params.satRetry = true ∧ (s 0x7FFFFF#24).acc = 0xFFFFFF#24) ∧
    ¬ ((s 0xFFFFFF#24).params.satRetry = true ∧ (s 0xFFFFFF#24).acc = (s 0xFFFFFF#24).params.satSentinel) := by
  decide

theorem witness_ReadRetries :
    let s := busyAt { session 1#2 with acc := 0xFFFFFF#24, params := { Config.defaults with satRetry := true } } .read
      (.cyc (.ml 1)) [.ok] []
    s.seq = .busy (.instr .read) (.cyc (.ml 1)) ∧ s.gain.toNat ≤ 1 ∧ s.nextCap = .ok ∧ s.params.satRetry = true ∧
      s.acc = s.params.satSentinel := by
  decide

theorem witness_SetGainCompletes :
    let s := busyAt (session 2#2) (.setGain 2#2) (.cyc (.ml 2)) [.ok] []
    (2#2 : GainCode) ≠ 0#2 ∧ s.seq = .busy (.instr (.setGain 2#2)) (.cyc (.ml 2)) ∧ (2#2 : GainCode).toNat ≤ 2 ∧
      s.nextCap = .ok := by
  decide

theorem witness_FaultEntry_start :
    let s := busyAt (session 1#2) .read .start [] [.err]
    let u := busyAt (session 1#2) (.setGain 3#2) .start [] [.err]
    s.life = .ready ∧ s.nextData = .err ∧ s.seq = .busy (.instr .read) .start ∧ u.life = .ready ∧ u.nextData = .err ∧
      u.seq = .busy (.instr (.setGain 3#2)) .start := by
  decide

/-- FaultEntry, beside `witness_AtCycle_read`: a failed sample, and a failed write of each level. -/
theorem witness_FaultEntry_cycle :
    let s (p : CyclePoint) := busyAt (session 3#2) .read (.cyc p) [.err] [.err]
    writesAt (.ds 0) = none ∧ (s (.ds 0)).nextData = .err ∧ writesAt (.dh 0) = some true ∧ (s (.dh 0)).nextCap = .err ∧
      writesAt (.ml 3) = some false ∧ (s (.ml 3)).nextCap = .err := by
  decide

/-- FaultEntry, third part: a failed sample in the state of `witness_LineInv_cycle`, and a failed first poll here. -/
theorem witness_FaultEntry_level :
    let s := busyAt (session 1#2) .read .start [] [.err]
    LineInv s ∧ s.nextData = .err ∧ s.seq = .busy (.instr .read) .start ∧ s.life = .ready :=
  ⟨⟨by rintro _ _ ⟨⟩; rfl, by decide, by decide, by rintro ⟨⟩, by rintro _ _ ⟨⟩; exact ⟨rfl, ⟨rfl, rfl⟩, rfl⟩⟩, rfl, rfl, rfl⟩

/-- ReadRun, ReadPulseCount, ReadRoundTrip: 42_read R156, two busy polls and 0x800000 at A128, one poll below the
limit 3. -/
theorem witness_ReadRun :
    let s : State := busyAt { session 1#2 with params := { Config.defaults with readyPollLimit := some 3 } } .read .start
      (List.replicate 50 .ok) (sends 2 0x800000#24)
    s.seq = .busy (.instr .read) .start ∧ s.life = .ready ∧ s.gain ≠ 0#2 ∧
    (∀ l, s.params.readyPollLimit = some l → 2 < l) ∧
    ¬ (s.params.satRetry = true ∧ 0x800000#24 = s.params.satSentinel) ∧
    HealthyFor (2 * totalPulses s.gain) (2 + 25) s ∧ ReadyAfter 2 s ∧ ChipSends 0x800000#24 (2 + 1) s ∧
    BitVec.ofInt 24 (-8388608) = 0x800000#24 ∧ 24 ≤ s.params.w :=
  ⟨rfl, rfl, by decide, fun _ h => by obtain rfl := Option.some.inj h; decide, by decide, by decide, by decide, by decide, by decide,
    by decide⟩

/-- ReadRetryRun, and ReadRun with the guard on and a sample that is not the sentinel. -/
theorem witness_ReadRetryRun :
    let s (raw : Raw) : State := busyAt { session 3#2 with params := { Config.defaults with satRetry := true } } .read .start
      (List.replicate 54 .ok) (sends 0 raw)
    (∀ raw, (s raw).seq = .busy (.instr .read) .start ∧ (s raw).life = .ready ∧ (s raw).gain ≠ 0#2 ∧
      (∀ l, (s raw).params.readyPollLimit = some l → 0 < l) ∧ (s raw).params.satRetry = true ∧
      ReadyAfter 0 (s raw)) ∧
    HealthyFor (2 * totalPulses 3#2) (0 + 25) (s 0xFFFFFF#24) ∧
    ChipSends (s 0xFFFFFF#24).params.satSentinel (0 + 1) (s 0xFFFFFF#24) ∧
    HealthyFor (2 * totalPulses 3#2) (0 + 25) (s 0x000005#24) ∧ ChipSends 0x000005#24 (0 + 1) (s 0x000005#24) ∧
    ¬ (0x000005#24 = (s 0x000005#24).params.satSentinel) :=
  ⟨fun _ => ⟨rfl, rfl, by simp [busyAt, session], fun _ h => (Option.some_ne_none _ h.symm).elim, rfl, rfl⟩, by decide, by decide, by decide, by decide,
    by decide⟩

theorem witness_SetGainRun :
    let s : State := busyAt (session 1#2) (.setGain 3#2) .start (List.replicate 54 .ok) (sends 0 0x123456#24)
    (3#2 : GainCode) ≠ 0#2 ∧ s.seq = .busy (.instr (.setGain 3#2)) .start ∧ s.life = .ready ∧
    (∀ l, s.params.readyPollLimit = some l → 0 < l) ∧
    HealthyFor (2 * totalPulses 3#2) (0 + 25) s ∧ ReadyAfter 0 s ∧ ChipSends 0x123456#24 (0 + 1) s :=
  ⟨by decide, rfl, rfl, fun _ h => (Option.some_ne_none _ h.symm).elim, by decide, by decide, by decide⟩

/-- TimeoutRun at the smallest limit, for READ and for SET_GAIN. -/
theorem witness_TimeoutRun :
    let s (i : Instr) : State := busyAt { session 1#2 with params := { Config.defaults with readyPollLimit := some 1 } } i .start
      [] [.bit true]
    (∀ i, (s i).life = .ready ∧ (s i).params.readyPollLimit = some 1 ∧
      (s i).dataDraws = List.replicate 1 (.bit true) ++ []) ∧
    (s .read).seq = .busy (.instr .read) .start ∧ (s (.setGain 2#2)).seq = .busy (.instr (.setGain 2#2)) .start :=
  ⟨fun _ => ⟨rfl, rfl, rfl⟩, rfl, rfl⟩

/-- ReadyWaitHangs, beside `witness_AtCycle_read`. -/
theorem witness_ReadyWaitHangs (k : Nat) :
    let s : State := busyAt (session 3#2) .read (.cyc .rw) [] (List.replicate k (.bit true))
    s.params.readyPollLimit = none ∧ s.dataDraws = List.replicate k (.bit true) ++ [] :=
  ⟨rfl, (List.append_nil _).symm⟩

/-- ShiftIn and SignExtension: 23 bits held, all ones; the narrowest result, and the default. -/
theorem witness_data_path : 23 < 24 ∧ (0x7FFFFF#24).toNat < 2 ^ 23 ∧ 24 ≤ 24 ∧ 24 ≤ Config.defaults.w := by decide

/-! Invariants, at states with a command in progress. -/

theorem witness_PulseInv :
    PulseInv (busyAt { session 3#2 with n := 26, acc := 0xFFFFFF#24, clockLevel := .high } (.setGain 3#2) (.cyc (.ml 3)) [] []) where
  gain := by decide
  cmd := by rintro _ _ ⟨⟩; rfl
  stored := by rintro _ _ ⟨⟩; rfl
  bound := by decide
  point := by rintro _ _ ⟨⟩; simp [pulsesAt, cycleGain, busyAt, extra]
  poll := by rintro _ _ ⟨⟩

theorem witness_PulseInv_poll :
    PulseInv (busyAt { session 1#2 with params := { Config.defaults with readyPollLimit := some 2 }, polls := 1 } .read
      (.cyc .rw) [] [.bit true]) where
  gain := by decide
  cmd := by rintro _ _ ⟨⟩; rfl
  stored := by rintro _ _ ⟨⟩
  bound := by decide
  point := by rintro _ _ ⟨⟩; rfl
  poll := by rintro _ _ ⟨⟩ ⟨⟩ _; decide

theorem witness_AccInv : AccInv (busyAt { session 1#2 with acc := 0x7FFFFF#24, n := 23 } .read (.cyc (.ds 23)) [] [.bit true]) := by
  rintro _ _ ⟨⟩; decide

theorem witness_LineInv_cycle :
    LineInv (busyAt { session 1#2 with clockLevel := .high, chipMode := .known 1#2 } .read (.cyc (.ds 5)) [] [.err]) where
  cmd := by rintro _ _ ⟨⟩; rfl
  undriven := by decide
  chip := by decide
  rest := by rintro ⟨⟩
  lines := by rintro _ _ ⟨⟩; exact ⟨rfl, rfl, ⟨rfl, rfl⟩, rfl⟩

theorem witness_LineInv_faulted : LineInv { session 1#2 with life := .faulted, clockLevel := .unknown } where
  cmd := by rintro _ _ ⟨⟩
  undriven := by decide
  chip := by decide
  rest := fun _ => ⟨rfl, rfl⟩
  lines := by rintro _ _ ⟨⟩

theorem witness_LineInv_failTear :
    LineInv (busyAt { State.reset with dataOwned := true, clockOwned := true, clockLevel := .unknown } (.init 1#2) (.failTear .clock) [.err] []) where
  cmd := by rintro _ _ ⟨⟩; rfl
  undriven := by decide
  chip := by decide
  rest := by rintro ⟨⟩
  lines := by rintro _ _ ⟨⟩; exact ⟨rfl, rfl, rfl, rfl⟩

theorem witness_LineInv_faulted_release :
    LineInv (busyAt { session 1#2 with life := .faulted, clockLevel := .unknown } .release .start [.err] []) where
  cmd := by rintro _ _ ⟨⟩; rfl
  undriven := by decide
  chip := by decide
  rest := by rintro ⟨⟩
  lines := by rintro _ _ ⟨⟩; exact ⟨rfl, rfl, rfl⟩

theorem witness_LineInv_driveLow :
    LineInv (busyAt { State.reset with dataOwned := true, clockOwned := true } (.init 2#2) .driveLow [.ok] []) where
  cmd := by rintro _ _ ⟨⟩; rfl
  undriven := by decide
  chip := by decide
  rest := by rintro ⟨⟩
  lines := by rintro _ _ ⟨⟩; exact ⟨rfl, rfl, rfl, rfl⟩

/-- OwnedByLife: its exception, the clock already released while life is still FAULTED. -/
theorem witness_OwnedByLife_tear :
    let s := busyAt { session 1#2 with life := .faulted, clockOwned := false, clockLevel := .undriven } .release (.tear .data) [.ok] []
    LineInv s ∧ s.life = .faulted :=
  ⟨⟨by rintro _ _ ⟨⟩; rfl, by decide, by decide, by rintro ⟨⟩, by rintro _ _ ⟨⟩; exact ⟨rfl, by decide, rfl, rfl⟩⟩, rfl⟩

/-- OwnedByLife: UNINIT at rest. -/
theorem witness_OwnedByLife_uninit : LineInv State.reset ∧ State.reset.life = .uninit ∧ State.reset.seq = .idle :=
  ⟨⟨by rintro _ _ ⟨⟩, by decide, by decide, fun _ => ⟨rfl, rfl⟩, by rintro _ _ ⟨⟩⟩, rfl, rfl⟩

/-- A session in which a READ has just been answered: the port mirrors that response (30_encoding R78). -/
def answeredRead : State :=
  { session 1#2 with
    result := ⟨32, 0xFF800000#32⟩
    responses := [⟨.ok, ⟨32, 0xFF800000#32⟩⟩]
    rspValid := true
    rspValue := ⟨32, 0xFF800000#32⟩ }

theorem witness_ResponseInv : ResponseInv answeredRead where
  width := rfl
  history := by rintro r hr; obtain rfl := List.mem_singleton.mp hr; exact ⟨rfl, fun h => absurd rfl h⟩
  busy := fun h => absurd rfl h
  port := ⟨fun _ => rfl, rfl, rfl⟩

/-! Whole-machine rules: a step of each kind they speak of. -/

/-- LinesHeldWhenUsed, in the state of `witness_LineInv_cycle`: the step reads the data line. -/
theorem witness_LinesHeldWhenUsed :
    let s := busyAt { session 1#2 with clockLevel := .high, chipMode := .known 1#2 } .read (.cyc (.ds 5)) [] [.err]
    let t := after (step s) s
    step s = .next t ∧ t.trace = s.trace ++ [.rd s.nextData] ∧ s.dataOwned = true :=
  ⟨rfl, by decide, by decide⟩

/-- LinesHeldWhenUsed, in the state of `witness_LineInv_driveLow`: the step writes the clock line and ends READY. -/
theorem witness_LinesHeldWhenUsed_ready :
    let s := busyAt { State.reset with dataOwned := true, clockOwned := true } (.init 2#2) .driveLow [.ok] []
    let t := after (step s) s
    step s = .next t ∧ t.life = .ready ∧ t.seq = .idle ∧ t.trace = s.trace ++ [.wr false s.nextCap] :=
  ⟨rfl, by decide, by decide, by decide⟩

/-- ResponseTable and LifeWriters, in the state of `witness_LineInv_cycle`: a READ that ends DEVICE_FAULTED. -/
theorem witness_ResponseTable :
    let s := busyAt { session 1#2 with clockLevel := .high, chipMode := .known 1#2 } .read (.cyc (.ds 5)) [] [.err]
    let t := after (step s) s
    step s = .next t ∧ t.seq = .idle ∧ t.life ≠ s.life ∧ t.rspStatus = Status.deviceFaulted.code :=
  ⟨rfl, by decide, by decide, by decide⟩

/-- Recovery and GainWriters, in the state of `witness_LineInv_driveLow`: INIT leaves UNINIT and writes the gain. -/
theorem witness_Recovery_uninit :
    let s := busyAt { State.reset with dataOwned := true, clockOwned := true } (.init 2#2) .driveLow [.ok] []
    let t := after (step s) s
    step s = .next t ∧ s.life = .uninit ∧ t.life ≠ .uninit ∧ t.gain ≠ s.gain :=
  ⟨rfl, by decide, by decide, by decide⟩

/-- Recovery: the last release of a RELEASE leaves FAULTED. -/
theorem witness_Recovery_faulted :
    let s := busyAt { session 1#2 with life := .faulted, clockOwned := false, clockLevel := .undriven } .release (.tear .data) [.ok] []
    let t := after (step s) s
    LineInv s ∧ step s = .next t ∧ s.life = .faulted ∧ t.life ≠ .faulted :=
  ⟨⟨by rintro _ _ ⟨⟩; rfl, by decide, by decide, by rintro ⟨⟩, by rintro _ _ ⟨⟩; exact ⟨rfl, by decide, rfl, rfl⟩⟩, rfl,
    by decide, by decide⟩

/-- GainWriters: SET_GAIN writes the gain in its first step. -/
theorem witness_GainWriters :
    let s := busyAt (session 1#2) (.setGain 3#2) .start [] [.bit true]
    let t := after (step s) s
    step s = .next t ∧ t.gain ≠ s.gain ∧ t.seq = .busy (.instr (.setGain 3#2)) (.cyc .rw) :=
  ⟨rfl, by decide, by decide⟩

theorem witness_ResultWriters :
    let s := busyAt { session 1#2 with acc := 0xABCDEF#24 } .read (.cyc (.ml 1)) [.ok] []
    let t := after (step s) s
    step s = .next t ∧ t.result ≠ s.result :=
  ⟨rfl, by decide⟩

theorem witness_AccWriters :
    let s := busyAt { session 1#2 with acc := 1#24 } .read (.cyc (.ds 1)) [] [.bit true]
    let u := busyAt { session 1#2 with acc := 1#24 } .read (.cyc .rw) [] [.bit false]
    step s = .next (after (step s) s) ∧ (after (step s) s).acc ≠ s.acc ∧
    step u = .next (after (step u) u) ∧ (after (step u) u).acc ≠ u.acc :=
  ⟨rfl, by decide, rfl, by decide⟩

/-- ChipModeWriters: the end of a read cycle sets the chip mode, and a RELEASE clears it. -/
theorem witness_ChipModeWriters :
    let s := busyAt (session 1#2) .read (.cyc (.ml 1)) [.ok] []
    let u := busyAt { session 1#2 with chipMode := .known 1#2, clockOwned := false } .release (.tear .data) [.err] []
    step s = .next (after (step s) s) ∧ (after (step s) s).chipMode ≠ s.chipMode ∧
    step u = .next (after (step u) u) ∧ (after (step u) u).chipMode ≠ u.chipMode :=
  ⟨rfl, by decide, rfl, by decide⟩

/-- LineStateWriters: one step for each event it names. -/
theorem witness_LineStateWriters :
    let t (s : State) := after (step s) s
    let wr (r : CapResult) := busyAt (session 1#2) .read (.cyc (.dh 0)) [r] []
    let relC := busyAt (session 1#2) .release .start [.err] []
    let relD := busyAt { session 1#2 with clockOwned := false } .release (.tear .data) [.err] []
    let cfgD := busyAt State.reset (.init 1#2) .start [.ok] []
    let cfgC := busyAt State.reset (.init 1#2) .cfgClock [.ok] []
    (t (wr .ok)).trace = [.wr true .ok] ∧ (t (wr .ok)).clockLevel ≠ (wr .ok).clockLevel ∧
    (t (wr .err)).trace = [.wr true .err] ∧ (t (wr .err)).clockLevel ≠ (wr .err).clockLevel ∧
    (t relC).trace = [.rel .clock .err] ∧ (t relC).clockOwned ≠ relC.clockOwned ∧
    (t relD).trace = [.rel .data .err] ∧ (t relD).dataOwned ≠ relD.dataOwned ∧
    (t cfgD).trace = [.cfg .data .input .ok] ∧ (t cfgD).dataOwned ≠ cfgD.dataOwned ∧
    (t cfgC).trace = [.cfg .clock .output .ok] ∧ (t cfgC).clockOwned ≠ cfgC.clockOwned := by
  decide

/-- SessionFrame and ReadFrame: a step of each of the four instructions. -/
theorem witness_frames :
    ∀ i : Instr, ∃ t, exec i (busyAt (session 1#2) i .start [.ok] [.bit true]) = .next t :=
  fun i => exec_next i _

end Sys2Proof.Tests
end

/-! PROOFS of the family 00_scope: at most one line primitive a step, the teardown INIT begins with, and RELEASE. -/

namespace Sys2Proof.Machine

open Sys2Proof.Safety

/-! ### The releases of a teardown, and what follows each (41_session R133, R138, R139) -/

theorem releaseNext_held {s : State} {l : Line} (h : s.heldLine = some l) : releaseNext s = afterRelease l s := by
  simp only [releaseNext, h, afterRelease]

theorem afterRelease_clock (s : State) :
    afterRelease .clock s =
      { drewCap (.rel .clock s.nextCap) s with clockOwned := false, clockLevel := .undriven } := by
  rw [afterRelease, lineRelease_clock]; rfl

theorem afterRelease_data (s : State) :
    afterRelease .data s = { drewCap (.rel .data s.nextCap) s with dataOwned := false } := by
  rw [afterRelease, lineRelease_data]; rfl

/-- The data line is released after the clock. -/
theorem heldLine_afterRelease_clock {s : State} (hd : s.dataOwned = true) :
    (afterRelease .clock s).heldLine = some .data := by
  rw [afterRelease_clock]; exact heldLine_data rfl hd

theorem heldLine_afterRelease_clock_alone {s : State} (hd : s.dataOwned = false) :
    (afterRelease .clock s).heldLine = none := by
  rw [afterRelease_clock]; exact heldLine_none rfl hd

theorem heldLine_afterRelease_data {s : State} (hc : s.clockOwned = false) :
    (afterRelease .data s).heldLine = none := by
  rw [afterRelease_data]; exact heldLine_none hc rfl

theorem initTorn_held {s : State} {l : Line} (i : Instr) (h : s.heldLine = some l) :
    initTorn i s = s.goto (.instr i) (.tear l) := by
  simp only [initTorn, h]

theorem initTorn_none {s : State} (i : Instr) (h : s.heldLine = none) :
    initTorn i s = s.goto (.instr i) .cfgData := by
  simp only [initTorn, h]

theorem releaseTorn_held {s : State} {l : Line} (h : s.heldLine = some l) :
    releaseTorn s = s.goto (.instr .release) (.tear l) := by
  simp only [releaseTorn, h]

theorem releaseTorn_none {s : State} (h : s.heldLine = none) : releaseTorn s = (closeTeardown s).answer .ok := by
  simp only [releaseTorn, h]

/-! ### The points of INIT's teardown (41_session R133, R134) -/

/-- INIT of an existing session begins with the release teardown has first. -/
theorem initStep_start_session {s : State} {g : GainCode} {l : Line} (h : s.seq = .busy (.instr (.init g)) .start)
    (hlife : s.life ≠ .uninit) (hl : s.heldLine = some l) : initStep g s = initTorn (.init g) (afterRelease l s) := by
  have hbegin : s.life ≠ .uninit ∧ s.heldLine ≠ none := ⟨hlife, by simp [hl]⟩
  simp only [initStep, h, Seq.point, initBegin, if_pos hbegin, releaseNext_held hl]

theorem initStep_tear {s : State} {g : GainCode} {l : Line} (h : s.seq = .busy (.instr (.init g)) (.tear l)) :
    initStep g s = initTorn (.init g) (afterRelease l s) := by
  simp only [initStep, h, Seq.point, afterRelease]

theorem initStep_cfgData {s : State} {g : GainCode} (h : s.seq = .busy (.instr (.init g)) .cfgData) :
    initStep g s = acquireData (.init g) (endTeardown s) := by
  simp only [initStep, h, Seq.point]

theorem endTeardown_session {s : State} (h : s.life ≠ .uninit) : endTeardown s = closeTeardown s :=
  if_neg h

theorem acquireData_ok {s : State} (i : Instr) (h : s.nextCap = .ok) :
    acquireData i s =
      ({ drewCap (.cfg .data .input .ok) s with dataOwned := true } : State).goto (.instr i) .cfgClock := by
  simp [acquireData, lineConfigure_ok _ _ h, drewCap, State.popCap, State.record]

/-! ### RELEASE -/

/-- Where a release point names the line teardown has next, every step of RELEASE makes the next release, if a line is
held, and goes on from there. -/
theorem releaseStep_eq {s : State} {p : Point} (h : s.seq = .busy (.instr .release) p)
    (hp : ∀ l, p = .tear l → s.heldLine = some l) : releaseStep s = releaseTorn (releaseNext s) := by
  cases p with
  | tear l => simp only [releaseStep, h, Seq.point, releaseNext, hp l rfl]
  | _ => simp only [releaseStep, h, Seq.point]

/-! ### At most one line primitive a step (00_scope R10, 10_state R36)

A command's step is a line primitive between register updates. `Quiet` says what the updates are to the trace and the
draws, `MadePrimitive` what the primitive is to them, and the two compose. -/

/-- From `s` to `t` no event is recorded and no draw is made. -/
structure Quiet (s t : State) : Prop where
  trace : t.trace = s.trace
  capDraws : t.capDraws = s.capDraws
  dataDraws : t.dataDraws = s.dataDraws
  freeCount : t.freeCount = s.freeCount

/-- The forms in which the controller makes a capability call, as the event recorded of a call with result `r`. -/
inductive CapEvent (r : CapResult) : Event → Prop where
  | cfgData : CapEvent r (.cfg .data .input r)
  | cfgClock : CapEvent r (.cfg .clock .output r)
  | wr (v : Bool) : CapEvent r (.wr v r)
  | rel (l : Line) : CapEvent r (.rel l r)

/-- From `s` to `t` one line primitive is made: its event is recorded with the result drawn, and that draw is used. -/
inductive MadePrimitive (s t : State) : Prop where
  | read (trace : t.trace = s.trace ++ [.rd s.nextData]) (dataDraws : t.dataDraws = s.dataDraws.tail)
      (capDraws : t.capDraws = s.capDraws)
  | cap (e : Event) (form : CapEvent s.nextCap e) (trace : t.trace = s.trace ++ [e])
      (capDraws : t.capDraws = s.capDraws.tail) (dataDraws : t.dataDraws = s.dataDraws)

theorem CapEvent.forms {r : CapResult} {e : Event} (h : CapEvent r e) :
    e = .cfg .data .input r ∨ e = .cfg .clock .output r ∨ e = .wr true r ∨ e = .wr false r ∨
      e = .rel .data r ∨ e = .rel .clock r := by
  rcases h with _ | _ | (_ | _) | (_ | _) <;> simp

theorem Quiet.refl (s : State) : Quiet s s := ⟨rfl, rfl, rfl, rfl⟩

theorem Quiet.nextCap {s u : State} (h : Quiet s u) : u.nextCap = s.nextCap := by
  rw [State.nextCap, State.nextCap, h.capDraws, h.freeCount]

theorem Quiet.nextData {s u : State} (h : Quiet s u) : u.nextData = s.nextData := by
  rw [State.nextData, State.nextData, h.dataDraws, h.freeCount]

/-- Updates before the primitive do not show. -/
theorem Quiet.thenMade {s u t : State} (h : Quiet s u) (hm : MadePrimitive u t) : MadePrimitive s t := by
  obtain ⟨htr, hd, hc⟩ | ⟨e, he, htr, hc, hd⟩ := hm
  · exact .read (by rw [htr, h.trace, h.nextData]) (hd.trans (by rw [h.dataDraws])) (hc.trans h.capDraws)
  · exact .cap e (h.nextCap ▸ he) (by rw [htr, h.trace]) (hc.trans (by rw [h.capDraws])) (hd.trans h.dataDraws)

/-- Updates after the primitive do not show. -/
theorem MadePrimitive.thenQuiet {s u t : State} (hm : MadePrimitive s u) (h : Quiet u t) : MadePrimitive s t := by
  obtain ⟨htr, hd, hc⟩ | ⟨e, he, htr, hc, hd⟩ := hm
  · exact .read (h.trace.trans htr) (h.dataDraws.trans hd) (h.capDraws.trans hc)
  · exact .cap e he (h.trace.trans htr) (h.capDraws.trans hc) (h.dataDraws.trans hd)

/-! #### The updates around a primitive -/

theorem quiet_endTeardown (s : State) : Quiet s (endTeardown s) := by
  unfold endTeardown
  split
  · exact .refl s
  · exact ⟨rfl, rfl, rfl, rfl⟩

theorem quiet_initTorn (i : Instr) (s : State) : Quiet s (initTorn i s) :=
  initTorn_rec i s (fun _ _ => ⟨rfl, rfl, rfl, rfl⟩) (fun _ _ => ⟨rfl, rfl, rfl, rfl⟩)

theorem quiet_initFail (i : Instr) (s : State) : Quiet s (initFail i s) :=
  initFail_rec i s (fun _ _ => ⟨rfl, rfl, rfl, rfl⟩) (fun _ _ => ⟨rfl, rfl, rfl, rfl⟩)

theorem quiet_releaseTorn (s : State) : Quiet s (releaseTorn s) :=
  releaseTorn_rec s (fun _ _ => ⟨rfl, rfl, rfl, rfl⟩) (fun _ _ => ⟨rfl, rfl, rfl, rfl⟩)

theorem quiet_readAfter (r : CycleEnd × State) : Quiet r.2 (readAfter r) := by
  obtain ⟨p | _ | _ | _, s⟩ := r
  case done =>
    simp only [readAfter]
    split <;> exact ⟨rfl, rfl, rfl, rfl⟩
  all_goals exact ⟨rfl, rfl, rfl, rfl⟩

theorem quiet_setGainAfter (g : GainCode) (r : CycleEnd × State) : Quiet r.2 (setGainAfter g r) := by
  obtain ⟨p | _ | _ | _, s⟩ := r <;> exact ⟨rfl, rfl, rfl, rfl⟩

/-! #### The primitives, with the updates after them -/

theorem made_afterRead {s t : State} {r : DataResult} (h : s.nextData = r) (hq : Quiet (afterRead r s) t) :
    MadePrimitive s t :=
  have hm : MadePrimitive s (afterRead r s) := .read (by rw [h]; rfl) rfl rfl
  hm.thenQuiet hq

theorem made_afterWrite {s t : State} {r : CapResult} (v : Bool) (h : s.nextCap = r)
    (hq : Quiet (afterWrite v r s) t) : MadePrimitive s t :=
  have hm : MadePrimitive s (afterWrite v r s) := .cap (.wr v r) (h ▸ .wr v) rfl rfl rfl
  hm.thenQuiet hq

theorem made_afterRelease {s t : State} (l : Line) (hq : Quiet (afterRelease l s) t) : MadePrimitive s t :=
  have hm : MadePrimitive s (afterRelease l s) := .cap (.rel l s.nextCap) (.rel l) rfl rfl rfl
  hm.thenQuiet hq

/-- A configure leaves its draw used and its event recorded, whatever it does to the lines held. -/
theorem made_configure {s t : State} {r : CapResult} {e : Event} (he : CapEvent r e) (h : s.nextCap = r)
    (hq : Quiet (s.popCap.record e) t) : MadePrimitive s t :=
  have hm : MadePrimitive s (s.popCap.record e) := .cap e (h ▸ he) rfl rfl rfl
  hm.thenQuiet hq

/-! #### The commands -/

theorem made_cycleStep (g : GainCode) (p : CyclePoint) (s : State) : MadePrimitive s (cycleStep g p s).2 :=
  cycleStep_rec (motive := fun r => MadePrimitive s r.2) g p s
    (pollZero := fun _ h => made_afterRead h ⟨rfl, rfl, rfl, rfl⟩)
    (pollOne := fun _ h _ => made_afterRead h ⟨rfl, rfl, rfl, rfl⟩)
    (pollLimit := fun _ _ h _ _ => made_afterRead h ⟨rfl, rfl, rfl, rfl⟩)
    (readErr := fun _ h => made_afterRead h (.refl _))
    (riseData := fun _ _ h => made_afterWrite true h (.refl _))
    (sampleBit := fun _ _ _ h => made_afterRead h ⟨rfl, rfl, rfl, rfl⟩)
    (fallData := fun _ _ h _ => made_afterWrite false h ⟨rfl, rfl, rfl, rfl⟩)
    (fallLastData := fun _ _ h _ => made_afterWrite false h ⟨rfl, rfl, rfl, rfl⟩)
    (riseMode := fun _ _ h => made_afterWrite true h (.refl _))
    (fallMode := fun _ _ h _ => made_afterWrite false h ⟨rfl, rfl, rfl, rfl⟩)
    (fallLast := fun _ _ h _ => made_afterWrite false h ⟨rfl, rfl, rfl, rfl⟩)
    (writeErr := fun v _ h => made_afterWrite v h (.refl _))

/-- READ makes a primitive in every step but the one in which the life check answers. -/
theorem readStep_atMostOne (s : State) : Quiet s (readStep s) ∨ MadePrimitive s (readStep s) :=
  have answered (st : Status) : Quiet s (s.answer st) := ⟨rfl, rfl, rfl, rfl⟩
  have starts : Quiet s (cycleStart s) := ⟨rfl, rfl, rfl, rfl⟩
  readStep_rec (motive := fun t => Quiet s t ∨ MadePrimitive s t) s
    (cycle := fun p _ => .inr ((made_cycleStep s.gain p s).thenQuiet (quiet_readAfter _)))
    (notInit := fun _ _ => .inl (answered _))
    (faulted := fun _ _ => .inl (answered _))
    (begins := fun _ _ => .inr (starts.thenMade ((made_cycleStep s.gain .rw _).thenQuiet (quiet_readAfter _))))

/-- SET_GAIN makes a primitive in every step but the one in which the life check answers. -/
theorem setGainStep_atMostOne (g : GainCode) (s : State) :
    Quiet s (setGainStep g s) ∨ MadePrimitive s (setGainStep g s) :=
  have answered (st : Status) : Quiet s (s.answer st) := ⟨rfl, rfl, rfl, rfl⟩
  have starts : Quiet s (cycleStart { s with gain := g }) := ⟨rfl, rfl, rfl, rfl⟩
  setGainStep_rec (motive := fun t => Quiet s t ∨ MadePrimitive s t) g s
    (cycle := fun p _ => .inr ((made_cycleStep g p s).thenQuiet (quiet_setGainAfter g _)))
    (notInit := fun _ _ => .inl (answered _))
    (faulted := fun _ _ => .inl (answered _))
    (begins := fun _ _ => .inr (starts.thenMade ((made_cycleStep g .rw _).thenQuiet (quiet_setGainAfter g _))))

/-- RELEASE makes a primitive in every step but the one that finds no line held. -/
theorem releaseStep_atMostOne (s : State) : Quiet s (releaseStep s) ∨ MadePrimitive s (releaseStep s) :=
  have releases (l : Line) : MadePrimitive s (releaseTorn (afterRelease l s)) :=
    made_afterRelease l (quiet_releaseTorn _)
  releaseStep_rec (motive := fun t => Quiet s t ∨ MadePrimitive s t) s
    (tear := fun l _ => .inr (releases l))
    (clock := fun _ _ => .inr (releases .clock))
    (data := fun _ _ _ => .inr (releases .data))
    (none := fun _ _ _ => .inl ⟨rfl, rfl, rfl, rfl⟩)

/-- INIT makes a primitive in every step. -/
theorem made_initStep (g : GainCode) (s : State) : MadePrimitive s (initStep g s) :=
  have torn {u : State} (hu : u = endTeardown s) : Quiet s u := hu ▸ quiet_endTeardown s
  initStep_rec (motive := MadePrimitive s) g s
    (tearFirst := fun l _ _ _ => made_afterRelease l (quiet_initTorn _ _))
    (tear := fun l _ => made_afterRelease l (quiet_initTorn _ _))
    (dataOk := fun _ hu _ h => (torn hu).thenMade
      (made_configure .cfgData ((torn hu).nextCap.trans h) ⟨rfl, rfl, rfl, rfl⟩))
    (dataErr := fun _ hu _ h => (torn hu).thenMade
      (made_configure .cfgData ((torn hu).nextCap.trans h) (quiet_initFail _ _)))
    (clockOk := fun _ h => made_configure .cfgClock h ⟨rfl, rfl, rfl, rfl⟩)
    (clockErr := fun _ h => made_configure .cfgClock h (quiet_initFail _ _))
    (lowOk := fun _ h => made_afterWrite false h ⟨rfl, rfl, rfl, rfl⟩)
    (lowErr := fun _ h => made_afterWrite false h (quiet_initFail _ _))
    (failTear := fun l _ => made_afterRelease l (quiet_initFail _ _))

/-- A step records nothing and draws nothing, or makes one line primitive. -/
theorem step_atMostOne {s t : State} (h : step s = .next t) : Quiet s t ∨ MadePrimitive s t :=
  step_rec (motive := fun s t => Quiet s t ∨ MadePrimitive s t)
    (idle := fun s _ _ => .inl (.refl s))
    (accept := fun _ _ _ _ _ => .inl ⟨rfl, rfl, rfl, rfl⟩)
    (reserved := fun _ _ _ _ => .inl ⟨rfl, rfl, rfl, rfl⟩)
    (zeroGain := fun _ _ _ _ _ => .inl ⟨rfl, rfl, rfl, rfl⟩)
    (init := fun s g _ _ _ => .inr (made_initStep g s))
    (release := fun s _ _ => releaseStep_atMostOne s)
    (read := fun s _ _ => readStep_atMostOne s)
    (setGain := fun s g _ _ _ => setGainStep_atMostOne g s)
    s t h

end Sys2Proof.Machine

namespace Sys2Proof.Scope

open Sys2Proof.Machine Sys2Proof.Safety

/-- Settles O12: a step is quiet, or makes one primitive (`step_atMostOne`), command by command. -/
theorem onePrimitivePerStep : Obligations.OnePrimitivePerStep := by
  intro s t h
  rcases step_atMostOne h with hq | ⟨htr, hd, hc⟩ | ⟨e, he, htr, hc, hd⟩
  · exact .inl ⟨hq.trace, hq.capDraws, hq.dataDraws, hq.freeCount⟩
  · exact .inr (.inl ⟨htr, hd, hc⟩)
  · exact .inr (.inr ⟨e, he.forms, htr, hc, hd⟩)

/-- Settles O17, point by point: the two releases keep life and chip mode, the data configure closes the teardown. -/
theorem initReconstructs : Obligations.InitReconstructs := by
  intro g s hg hlife
  rw [exec_init s hg]
  refine ⟨fun h ⟨hd, hc⟩ => ?_, fun h ⟨_, hc⟩ => ?_, fun h hok => ?_⟩
  · rw [initStep_start_session h hlife (heldLine_clock hc), initTorn_held _ (heldLine_afterRelease_clock hd),
      afterRelease_clock]
    rfl
  · rw [initStep_tear h, initTorn_none _ (heldLine_afterRelease_data hc), afterRelease_data]
    rfl
  · have hcap : (closeTeardown s).nextCap = .ok := hok
    rw [initStep_cfgData h, endTeardown_session hlife, acquireData_ok _ hcap]
    rfl

/-- Settles O18: every step of RELEASE makes the next release and goes on from there (`releaseStep_eq`). -/
theorem releaseSteps : Obligations.ReleaseSteps := by
  intro s p h hp
  rw [exec_release, releaseStep_eq h hp]
  refine ⟨fun ⟨hd, hc⟩ => ?_, fun ⟨hd, hc⟩ => ?_, fun ⟨hd, hc⟩ => ?_, fun ⟨hd, hc⟩ => ?_⟩
  · rw [releaseNext_held (heldLine_clock hc), releaseTorn_held (heldLine_afterRelease_clock hd), afterRelease_clock]
    rfl
  · rw [releaseNext_held (heldLine_clock hc), releaseTorn_none (heldLine_afterRelease_clock_alone hd),
      afterRelease_clock]
    rfl
  · rw [releaseNext_held (heldLine_data hc hd), releaseTorn_none (heldLine_afterRelease_data hc), afterRelease_data]
    rfl
  · rw [releaseNext_none hc hd, releaseTorn_none (heldLine_none hc hd)]
    rfl

end Sys2Proof.Scope

/-! PROOFS of the family 10_state: the invariants of the counters and of the lines, and what writes each register. -/

namespace Sys2Proof.Machine

open Sys2Proof.Safety

/-! ### A step of READ or SET_GAIN, said once for both (42_read R151, R161)

The step takes its cycle from `CycleFrom`, makes a step of the read cycle, and goes on as `CycleThen` says. -/

/-- The commands that run a read cycle. -/
abbrev RunsCycle (i : Instr) : Prop := i = .read ∨ ∃ g, i = .setGain g

/-- Where a step of `i` takes up the read cycle: at the point the sequencer names, or at the first poll, with the counters
cleared and SET_GAIN's gain stored. -/
inductive CycleFrom (i : Instr) (s : State) : CyclePoint → State → Prop where
  | point (p : CyclePoint) (hp : s.seq.point = .cyc p) : CycleFrom i s p s
  | start (hp : ∀ p, s.seq.point ≠ .cyc p) (ready : s.life = .ready) :
      CycleFrom i s .rw (cycleStart { s with gain := cycleGain (.instr i) s })

/-- What `i` makes of the end `r.1` and the state `r.2` of a step of its read cycle. -/
inductive CycleThen (i : Instr) (r : CycleEnd × State) : State → Prop where
  | cont (p : CyclePoint) (h : r.1 = .cont p) : CycleThen i r (r.2.goto (.instr i) (.cyc p))
  | timeout (h : r.1 = .timeout) : CycleThen i r (r.2.answer .timeout)
  | faulted (h : r.1 = .faulted) : CycleThen i r (raiseFaulted r.2)
  | retry (h : r.1 = .done) (hi : i = .read) : CycleThen i r ((cycleStart r.2).goto (.instr i) (.cyc .rw))
  | read (h : r.1 = .done) (hi : i = .read) : CycleThen i r (readDone r.2)
  | commit (h : r.1 = .done) (hi : ∃ g, i = .setGain g) : CycleThen i r (r.2.answer .ok)

/-- Everything READ and SET_GAIN can do in a step: the life check answers, or a step of the read cycle is made. -/
inductive CycleCommandStep (i : Instr) (s : State) : State → Prop where
  | refused (st : Status) (hp : ∀ p, s.seq.point ≠ .cyc p) (life : s.life ≠ .ready) :
      CycleCommandStep i s (s.answer st)
  | cycle {p : CyclePoint} {u t : State} (start : CycleFrom i s p u)
      (next : CycleThen i (cycleStep (cycleGain (.instr i) s) p u) t) : CycleCommandStep i s t

theorem readAfter_cycleThen (r : CycleEnd × State) : CycleThen .read r (readAfter r) := by
  obtain ⟨p | _ | _ | _, s⟩ := r
  case cont => exact .cont p rfl
  case timeout => exact .timeout rfl
  case faulted => exact .faulted rfl
  case done =>
    simp only [readAfter]
    split
    · exact .retry (r := (.done, s)) rfl rfl
    · exact .read (r := (.done, s)) rfl rfl

theorem setGainAfter_cycleThen (g : GainCode) (r : CycleEnd × State) :
    CycleThen (.setGain g) r (setGainAfter g r) := by
  obtain ⟨p | _ | _ | _, s⟩ := r
  case cont => exact .cont p rfl
  case timeout => exact .timeout rfl
  case faulted => exact .faulted rfl
  case done => exact .commit rfl ⟨g, rfl⟩

theorem readStep_cycleCommandStep (s : State) : CycleCommandStep .read s (readStep s) :=
  readStep_rec (motive := CycleCommandStep .read s) s
    (cycle := fun p hp => .cycle (.point p hp) (readAfter_cycleThen _))
    (notInit := fun hp hl => .refused _ hp (by simp [hl]))
    (faulted := fun hp hl => .refused _ hp (by simp [hl]))
    (begins := fun hp hl => .cycle (.start hp hl) (readAfter_cycleThen _))

theorem setGainStep_cycleCommandStep (g : GainCode) (s : State) :
    CycleCommandStep (.setGain g) s (setGainStep g s) :=
  setGainStep_rec (motive := CycleCommandStep (.setGain g) s) g s
    (cycle := fun p hp => .cycle (.point p hp) (setGainAfter_cycleThen g _))
    (notInit := fun hp hl => .refused _ hp (by simp [hl]))
    (faulted := fun hp hl => .refused _ hp (by simp [hl]))
    (begins := fun hp hl => .cycle (.start hp hl) (setGainAfter_cycleThen g _))

/-- Everything `step` can do, with READ and SET_GAIN as one case. -/
theorem step_cases {motive : State → State → Prop}
    (idle : ∀ s, s.seq = .idle → s.pending = [] → motive s s)
    (accept : ∀ s w ws, s.seq = .idle → s.pending = w :: ws →
      motive s { s with pending := ws, rspValid := false, seq := .busy (decode w) .start })
    (answered : ∀ s c p, s.seq = .busy c p → (CmdLegal c → ∃ r, c = .reserved r) → motive s (answerReserved s))
    (init : ∀ s g p, s.seq = .busy (.instr (.init g)) p → g ≠ 0#2 → motive s (initStep g s))
    (release : ∀ s p, s.seq = .busy (.instr .release) p → motive s (releaseStep s))
    (cycle : ∀ s i p t, s.seq = .busy (.instr i) p → RunsCycle i → i.WellFormed →
      CycleCommandStep i s t → motive s t)
    (s t : State) (h : step s = .next t) : motive s t :=
  step_rec (motive := motive) idle accept
    (fun s r p hs => answered s _ p hs fun _ => ⟨r, rfl⟩)
    (fun s _ p hs hi => answered s _ p hs fun hl => absurd hl hi)
    init release
    (fun s p hs => cycle s .read p _ hs (.inl rfl) rfl (readStep_cycleCommandStep s))
    (fun s g p hs hg => cycle s (.setGain g) p _ hs (.inr ⟨g, rfl⟩) (decide_eq_true hg)
      (setGainStep_cycleCommandStep g s))
    s t h

/-! #### What a read-cycle step keeps -/

/-- The fields a step of READ or SET_GAIN has not written when it comes to `CycleThen`. -/
structure CycleKeeps (s t : State) : Prop where
  params : t.params = s.params
  life : t.life = s.life
  result : t.result = s.result
  dataOwned : t.dataOwned = s.dataOwned
  clockOwned : t.clockOwned = s.clockOwned
  responses : t.responses = s.responses

theorem cycleStep_keeps (g : GainCode) (p : CyclePoint) (s : State) : CycleKeeps s (cycleStep g p s).2 := by
  obtain ⟨hparams, hlife, -, hresult, hdata, hclock, -, hresponses, -⟩ := cycleStep_frame g p s
  exact ⟨hparams, hlife, hresult, hdata, hclock, hresponses⟩

@[simp] theorem cycleStep_gain (g : GainCode) (p : CyclePoint) (s : State) : (cycleStep g p s).2.gain = s.gain := by
  obtain ⟨-, -, hgain, -⟩ := cycleStep_frame g p s
  exact hgain

theorem CycleFrom.keeps {i : Instr} {s u : State} {p : CyclePoint} (h : CycleFrom i s p u) : CycleKeeps s u := by
  cases h <;> exact ⟨rfl, rfl, rfl, rfl, rfl, rfl⟩

theorem CycleKeeps.trans {s u t : State} (h : CycleKeeps s u) (h' : CycleKeeps u t) : CycleKeeps s t :=
  ⟨h'.params.trans h.params, h'.life.trans h.life, h'.result.trans h.result, h'.dataOwned.trans h.dataOwned,
    h'.clockOwned.trans h.clockOwned, h'.responses.trans h.responses⟩

theorem CycleFrom.keeps_cycleStep {i : Instr} {s u : State} {p : CyclePoint} (h : CycleFrom i s p u) (g : GainCode) :
    CycleKeeps s (cycleStep g p u).2 :=
  h.keeps.trans (cycleStep_keeps g p u)

/-- Beginning a cycle leaves the accumulator, the chip mode and the draws. -/
theorem CycleFrom.acc {i : Instr} {s u : State} {p : CyclePoint} (h : CycleFrom i s p u) : u.acc = s.acc := by
  cases h <;> rfl

theorem CycleFrom.chipMode {i : Instr} {s u : State} {p : CyclePoint} (h : CycleFrom i s p u) :
    u.chipMode = s.chipMode := by
  cases h <;> rfl

theorem CycleFrom.nextData {i : Instr} {s u : State} {p : CyclePoint} (h : CycleFrom i s p u) :
    u.nextData = s.nextData := by
  cases h <;> rfl

/-- A cycle past its first poll has been taken up at its point. -/
theorem CycleFrom.eq_of_ne_rw {i : Instr} {s u : State} {p : CyclePoint} (h : CycleFrom i s p u) (hp : p ≠ .rw) :
    u = s ∧ s.seq.point = .cyc p := by
  cases h with
  | point _ h => exact ⟨rfl, h⟩
  | start => exact absurd rfl hp

/-- The point of a command in progress. -/
theorem eq_of_seq_point {s : State} {c : Cmd} {p q : Point} (h : s.seq = .busy c p) (hq : s.seq.point = q) : p = q := by
  rw [h] at hq
  exact hq

theorem CycleThen.gain {i : Instr} {r : CycleEnd × State} {t : State} (h : CycleThen i r t) : t.gain = r.2.gain := by
  cases h <;> rfl

theorem CycleThen.acc {i : Instr} {r : CycleEnd × State} {t : State} (h : CycleThen i r t) : t.acc = r.2.acc := by
  cases h <;> rfl

theorem CycleThen.params {i : Instr} {r : CycleEnd × State} {t : State} (h : CycleThen i r t) :
    t.params = r.2.params := by
  cases h <;> rfl

/-- A cycle that goes on goes on at its next point. -/
theorem CycleThen.seq_of_cont {i : Instr} {r : CycleEnd × State} {t : State} {p : CyclePoint} (h : CycleThen i r t)
    (hr : r.1 = .cont p) : t.seq = .busy (.instr i) (.cyc p) := by
  cases h with
  | cont q hq => obtain rfl := CycleEnd.cont.inj (hq.symm.trans hr); rfl
  | timeout h | faulted h | retry h | read h | commit h => simp [h] at hr

/-! ### The steps of INIT and RELEASE (41_session R131, R139) -/

/-- What every step of INIT and RELEASE keeps: all registers of the data path, the counters and the command port; responses
are only added. -/
structure DataKept (s t : State) : Prop where
  params : t.params = s.params
  acc : t.acc = s.acc
  result : t.result = s.result
  n : t.n = s.n
  polls : t.polls = s.polls
  pending : t.pending = s.pending
  dataDraws : t.dataDraws = s.dataDraws
  responses : s.responses <+: t.responses

/-- What every step of them but the last of a successful INIT keeps: the gain too, and life and chip mode are kept or given
up together. -/
structure SessionKeeps (s t : State) : Prop extends DataKept s t where
  gain : t.gain = s.gain
  session : (t.life = s.life ∧ t.chipMode = s.chipMode) ∨ (t.life = .uninit ∧ t.chipMode = .unknown)

theorem SessionKeeps.trans {s u t : State} (h : SessionKeeps s u) (h' : SessionKeeps u t) : SessionKeeps s t where
  params := h'.params.trans h.params
  acc := h'.acc.trans h.acc
  result := h'.result.trans h.result
  n := h'.n.trans h.n
  polls := h'.polls.trans h.polls
  pending := h'.pending.trans h.pending
  dataDraws := h'.dataDraws.trans h.dataDraws
  responses := h.responses.trans h'.responses
  gain := h'.gain.trans h.gain
  session := by
    obtain ⟨hl, hc⟩ | closed := h'.session
    · rw [hl, hc]; exact h.session
    · exact .inr closed

theorem sessionKeeps_goto (c : Cmd) (p : Point) (s : State) : SessionKeeps s (s.goto c p) :=
  ⟨⟨rfl, rfl, rfl, rfl, rfl, rfl, rfl, List.prefix_rfl⟩, rfl, .inl ⟨rfl, rfl⟩⟩

theorem sessionKeeps_closeTeardown (s : State) : SessionKeeps s (closeTeardown s) :=
  ⟨⟨rfl, rfl, rfl, rfl, rfl, rfl, rfl, List.prefix_rfl⟩, rfl, .inr ⟨rfl, rfl⟩⟩

theorem sessionKeeps_answer (st : Status) (s : State) : SessionKeeps s (s.answer st) :=
  ⟨⟨rfl, rfl, rfl, rfl, rfl, rfl, rfl, List.prefix_append _ _⟩, rfl, .inl ⟨rfl, rfl⟩⟩

theorem sessionKeeps_configured (e : Event) (s : State) : SessionKeeps s (s.popCap.record e) :=
  ⟨⟨rfl, rfl, rfl, rfl, rfl, rfl, rfl, List.prefix_rfl⟩, rfl, .inl ⟨rfl, rfl⟩⟩

theorem sessionKeeps_owned (data clock : Bool) (s : State) :
    SessionKeeps s { s with dataOwned := data, clockOwned := clock } :=
  ⟨⟨rfl, rfl, rfl, rfl, rfl, rfl, rfl, List.prefix_rfl⟩, rfl, .inl ⟨rfl, rfl⟩⟩

theorem sessionKeeps_afterWrite (v : Bool) (r : CapResult) (s : State) : SessionKeeps s (afterWrite v r s) :=
  ⟨⟨rfl, rfl, rfl, rfl, rfl, rfl, rfl, List.prefix_rfl⟩, rfl, .inl ⟨rfl, rfl⟩⟩

theorem sessionKeeps_afterRelease (l : Line) (s : State) : SessionKeeps s (afterRelease l s) :=
  ⟨⟨rfl, rfl, rfl, rfl, rfl, rfl, rfl, List.prefix_rfl⟩, rfl, .inl ⟨rfl, rfl⟩⟩

theorem sessionKeeps_endTeardown (s : State) : SessionKeeps s (endTeardown s) := by
  unfold endTeardown
  split
  · exact ⟨⟨rfl, rfl, rfl, rfl, rfl, rfl, rfl, List.prefix_rfl⟩, rfl, .inl ⟨rfl, rfl⟩⟩
  · exact sessionKeeps_closeTeardown s

theorem sessionKeeps_closed (st : Status) (s : State) : SessionKeeps s ((closeTeardown s).answer st) :=
  (sessionKeeps_closeTeardown s).trans (sessionKeeps_answer st _)

theorem sessionKeeps_initFail (i : Instr) (s : State) : SessionKeeps s (initFail i s) :=
  initFail_rec i s (fun _ _ => sessionKeeps_goto _ _ s) (fun _ _ => sessionKeeps_closed _ s)

theorem sessionKeeps_initTorn (i : Instr) (s : State) : SessionKeeps s (initTorn i s) :=
  initTorn_rec i s (fun _ _ => sessionKeeps_goto _ _ s) (fun _ _ => sessionKeeps_goto _ _ s)

theorem sessionKeeps_releaseTorn (s : State) : SessionKeeps s (releaseTorn s) :=
  releaseTorn_rec s (fun _ _ => sessionKeeps_goto _ _ s) (fun _ _ => sessionKeeps_closed _ s)

theorem sessionKeeps_releaseStep (s : State) : SessionKeeps s (releaseStep s) :=
  have torn (l : Line) : SessionKeeps s (releaseTorn (afterRelease l s)) :=
    (sessionKeeps_afterRelease l s).trans (sessionKeeps_releaseTorn _)
  releaseStep_rec s (fun l _ => torn l) (fun _ _ => torn .clock) (fun _ _ _ => torn .data)
    (fun _ _ _ => sessionKeeps_closed _ s)

/-- Everything INIT does to the registers: its last step completes it (R136), and every other keeps them. -/
theorem initStep_done_or_keeps (g : GainCode) (s : State) :
    (s.seq.point = .driveLow ∧ initStep g s = initDone g (afterWrite false .ok s)) ∨ SessionKeeps s (initStep g s) :=
  have failed {u : State} (h : SessionKeeps s u) : SessionKeeps s (initFail (.init g) u) :=
    h.trans (sessionKeeps_initFail _ u)
  have torn (l : Line) : SessionKeeps s (initTorn (.init g) (afterRelease l s)) :=
    (sessionKeeps_afterRelease l s).trans (sessionKeeps_initTorn _ _)
  have acquired (c : Cmd) (p : Point) (data clock : Bool) {u : State} (h : SessionKeeps s u) :
      SessionKeeps s (({ u with dataOwned := data, clockOwned := clock } : State).goto c p) :=
    (h.trans (sessionKeeps_owned data clock u)).trans (sessionKeeps_goto c p _)
  have cfgData (e : Event) {u : State} (hu : u = endTeardown s) : SessionKeeps s (u.popCap.record e) :=
    hu ▸ (sessionKeeps_endTeardown s).trans (sessionKeeps_configured e _)
  initStep_rec (motive := fun t => (s.seq.point = .driveLow ∧ t = initDone g (afterWrite false .ok s)) ∨
      SessionKeeps s t) g s
    (tearFirst := fun l _ _ _ => .inr (torn l))
    (tear := fun l _ => .inr (torn l))
    (dataOk := fun _ hu _ _ => .inr (acquired _ _ _ _ (cfgData _ hu)))
    (dataErr := fun _ hu _ _ => .inr (failed (cfgData _ hu)))
    (clockOk := fun _ _ => .inr (acquired _ _ _ _ (sessionKeeps_configured _ s)))
    (clockErr := fun _ _ => .inr (failed (sessionKeeps_configured _ s)))
    (lowOk := fun hp _ => .inl ⟨hp, rfl⟩)
    (lowErr := fun _ _ => .inr (failed (sessionKeeps_afterWrite _ _ s)))
    (failTear := fun l _ => .inr (failed (sessionKeeps_afterRelease l s)))

theorem dataKept_initStep (g : GainCode) (s : State) : DataKept s (initStep g s) := by
  obtain ⟨-, hdone⟩ | keeps := initStep_done_or_keeps g s
  · exact hdone ▸ ⟨rfl, rfl, rfl, rfl, rfl, rfl, rfl, List.prefix_append _ _⟩
  · exact keeps.toDataKept

/-- The command `c` has responded, or stands at none of the points of a read cycle. -/
def OffCycle (c : Cmd) (t : State) : Prop :=
  t.seq = .idle ∨ ∃ p, t.seq = .busy c p ∧ ∀ q, p ≠ .cyc q

theorem offCycle_goto (c : Cmd) (s : State) {p : Point} (hp : ∀ q, p ≠ .cyc q) : OffCycle c (s.goto c p) :=
  .inr ⟨p, rfl, hp⟩

theorem offCycle_initFail (i : Instr) (s : State) : OffCycle (.instr i) (initFail i s) :=
  initFail_rec i s (fun _ _ => offCycle_goto _ s nofun) (fun _ _ => .inl rfl)

theorem offCycle_initTorn (i : Instr) (s : State) : OffCycle (.instr i) (initTorn i s) :=
  initTorn_rec i s (fun _ _ => offCycle_goto _ s nofun) (fun _ _ => offCycle_goto _ s nofun)

theorem offCycle_releaseTorn (s : State) : OffCycle (.instr .release) (releaseTorn s) :=
  releaseTorn_rec s (fun _ _ => offCycle_goto _ s nofun) (fun _ _ => .inl rfl)

theorem offCycle_initStep (g : GainCode) (s : State) : OffCycle (.instr (.init g)) (initStep g s) :=
  initStep_rec g s
    (tearFirst := fun _ _ _ _ => offCycle_initTorn _ _)
    (tear := fun _ _ => offCycle_initTorn _ _)
    (dataOk := fun _ _ _ _ => offCycle_goto _ _ nofun)
    (dataErr := fun _ _ _ _ => offCycle_initFail _ _)
    (clockOk := fun _ _ => offCycle_goto _ _ nofun)
    (clockErr := fun _ _ => offCycle_initFail _ _)
    (lowOk := fun _ _ => .inl rfl)
    (lowErr := fun _ _ => offCycle_initFail _ _)
    (failTear := fun _ _ => offCycle_initFail _ _)

theorem offCycle_releaseStep (s : State) : OffCycle (.instr .release) (releaseStep s) :=
  releaseStep_rec s (fun _ _ => offCycle_releaseTorn _) (fun _ _ => offCycle_releaseTorn _)
    (fun _ _ _ => offCycle_releaseTorn _) (fun _ _ _ => .inl rfl)

/-! ### The counters (10_state R25, R32) -/

/-- The counters at point `p` of a read cycle with mode `g`: what `PulseInv` says of a state at that point. -/
structure CyclePulses (g : GainCode) (p : CyclePoint) (s : State) : Prop where
  pulses : pulsesAt g s.n p
  polls : p = .rw → ∀ l, s.params.readyPollLimit = some l → 1 ≤ l → s.polls < l

theorem extra_le (g : GainCode) : extra g ≤ 3 := by
  have := g.isLt
  unfold extra
  omega

theorem one_le_extra {g : GainCode} (hg : g ≠ 0#2) : 1 ≤ extra g :=
  Nat.pos_of_ne_zero fun h => hg (BitVec.eq_of_toNat_eq h)

/-- At every point fewer than 27 pulses are completed, for the pulse the point belongs to is not. -/
theorem CyclePulses.n_lt {g : GainCode} {p : CyclePoint} {s : State} (h : CyclePulses g p s) : s.n < 27 := by
  have hn := h.pulses
  have hg := extra_le g
  cases p <;> simp only [pulsesAt] at hn <;> omega

theorem cyclePulses_start (g : GainCode) {s : State} (hn : s.n = 0) (hp : s.polls = 0) : CyclePulses g .rw s :=
  ⟨hn, fun _ l _ hl => by omega⟩

/-- What a step of a cycle with mode `g` leaves: at most 27 pulses, and where it goes on, the counters of the next point. -/
def PulsesAfter (g : GainCode) (r : CycleEnd × State) : Prop :=
  r.2.n ≤ 27 ∧ ∀ q, r.1 = .cont q → CyclePulses g q r.2

theorem pulsesAfter_stop {g : GainCode} {e : CycleEnd} {s : State} (hn : s.n ≤ 27) (he : ∀ q, e ≠ .cont q) :
    PulsesAfter g (e, s) :=
  ⟨hn, fun q hq => absurd hq (he q)⟩

theorem CyclePulses.after {g : GainCode} {p : CyclePoint} {s : State} (h : CyclePulses g p s) :
    PulsesAfter g (.cont p, s) :=
  ⟨h.n_lt.le, fun _ hq => CycleEnd.cont.inj hq ▸ h⟩

/-- Past the ready-wait only the pulses are counted. -/
theorem pulsesAfter_pulse {g : GainCode} {p : CyclePoint} {s : State} (hp : p ≠ .rw) (h : pulsesAt g s.n p) :
    PulsesAfter g (.cont p, s) :=
  CyclePulses.after ⟨h, fun hrw => absurd hrw hp⟩

/-- A step of the cycle counts as the table of 40_sequencer R120 has it. -/
theorem cycleStep_pulses {g : GainCode} {p : CyclePoint} {s : State} (hg : g ≠ 0#2) (h : CyclePulses g p s) :
    PulsesAfter g (cycleStep g p s) := by
  have hn := h.pulses
  have hlt := h.n_lt
  have hmode := one_le_extra hg
  refine cycleStep_rec g p s ?pollZero ?pollOne ?pollLimit ?readErr ?riseData ?sampleBit ?fallData ?fallLastData
    ?riseMode ?fallMode ?fallLast ?writeErr
  case pollZero => rintro rfl -; exact pulsesAfter_pulse nofun ⟨hn, by decide⟩
  case pollOne => rintro rfl - hl; exact CyclePulses.after ⟨hn, fun _ l hs _ => hl l hs⟩
  case pollLimit => exact fun _ _ _ _ _ => pulsesAfter_stop hlt.le nofun
  case readErr => exact fun _ _ => pulsesAfter_stop hlt.le nofun
  case riseData => rintro i rfl -; exact pulsesAfter_pulse nofun hn
  case sampleBit => rintro i b rfl -; exact pulsesAfter_pulse nofun hn
  case fallData =>
    rintro i rfl - hi
    exact pulsesAfter_pulse nofun ⟨congrArg (· + 1) hn.1, by omega⟩
  case fallLastData =>
    rintro i rfl - hi
    obtain ⟨hni, hi24⟩ := hn
    have h24 : s.n + 1 = 23 + 1 := by omega
    exact pulsesAfter_pulse nofun ⟨h24, le_rfl, hmode⟩
  case riseMode => rintro j rfl -; exact pulsesAfter_pulse nofun hn
  case fallMode =>
    rintro j rfl - hj
    exact pulsesAfter_pulse nofun ⟨congrArg (· + 1) hn.1, Nat.le_add_left 1 j, hj⟩
  case fallLast => exact fun _ _ _ _ => pulsesAfter_stop hlt nofun
  case writeErr => exact fun _ _ _ => pulsesAfter_stop hlt.le nofun

/-- The invariant of a state at no point of a read cycle. -/
theorem pulseInv_of_offCycle {c : Cmd} {t : State} (h : OffCycle c t) (hc : CmdLegal c) (hg : t.gain ≠ 0#2)
    (hn : t.n ≤ 27) : PulseInv t := by
  have off : ∀ c p, t.seq ≠ .busy c (.cyc p) := by
    intro c p hs
    obtain h | ⟨q, h, hq⟩ := h <;> rw [h] at hs
    · exact nomatch hs
    · exact hq p (Seq.busy.inj hs).2
  refine { gain := hg, cmd := ?_, stored := fun _ _ hs => absurd hs (off _ _), bound := hn,
           point := fun _ _ hs => absurd hs (off _ _), poll := fun _ _ hs => absurd hs (off _ _) }
  intro c p hs
  obtain h | ⟨q, h, -⟩ := h <;> rw [h] at hs
  · exact nomatch hs
  · exact (Seq.busy.inj hs).1 ▸ hc

/-- The invariant of a state at a point of the read cycle of `i`, run with mode `g`. -/
theorem pulseInv_of_cycle {i : Instr} {g : GainCode} {p : CyclePoint} {t : State}
    (hs : t.seq = .busy (.instr i) (.cyc p)) (hi : i.WellFormed) (hg : g ≠ 0#2) (hgain : t.gain = g)
    (hrun : cycleGain (.instr i) t = g) (h : CyclePulses g p t) : PulseInv t where
  gain := hgain ▸ hg
  cmd c q hc := by rw [hs] at hc; exact (Seq.busy.inj hc).1 ▸ hi
  stored g' q hc := by
    rw [hs] at hc
    obtain ⟨hc, -⟩ := Seq.busy.inj hc
    rw [hc] at hrun
    exact hgain.trans hrun.symm
  bound := h.n_lt.le
  point c q hc := by
    rw [hs] at hc
    obtain ⟨rfl, hq⟩ := Seq.busy.inj hc
    rw [hrun, ← Point.cyc.inj hq]
    exact h.pulses
  poll c l hc := by
    rw [hs] at hc
    obtain ⟨-, hq⟩ := Seq.busy.inj hc
    exact h.polls (Point.cyc.inj hq) l

/-- READ and SET_GAIN take up their cycle with the gain it is run with in the gain register. -/
theorem CycleFrom.gain {i : Instr} {s u : State} {p : CyclePoint} {q : Point} (h : CycleFrom i s p u)
    (hs : s.seq = .busy (.instr i) q) (hinv : PulseInv s) : u.gain = cycleGain (.instr i) s := by
  cases h with
  | start => rfl
  | point p hp =>
    obtain rfl := eq_of_seq_point hs hp
    cases i with
    | setGain g => exact hinv.stored g p hs
    | _ => rfl

theorem CycleFrom.pulses {i : Instr} {s u : State} {p : CyclePoint} {q : Point} (h : CycleFrom i s p u)
    (hs : s.seq = .busy (.instr i) q) (hinv : PulseInv s) : CyclePulses (cycleGain (.instr i) s) p u := by
  cases h with
  | start => exact cyclePulses_start _ rfl rfl
  | point p hp =>
    obtain rfl := eq_of_seq_point hs hp
    exact ⟨hinv.point _ p hs, fun hrw l => hinv.poll _ l (hrw ▸ hs)⟩

theorem cycleGain_ne_zero {i : Instr} {s : State} (hi : i.WellFormed) (hg : s.gain ≠ 0#2) :
    cycleGain (.instr i) s ≠ 0#2 := by
  cases i with
  | setGain g => exact of_decide_eq_true hi
  | _ => exact hg

/-- The gain a cycle is run with depends on the gain register alone. -/
theorem cycleGain_idem {i : Instr} {s t : State} (h : t.gain = cycleGain (.instr i) s) :
    cycleGain (.instr i) t = cycleGain (.instr i) s := by
  cases i with
  | setGain g => rfl
  | _ => exact h

theorem pulseInv_cycleCommandStep {i : Instr} {s t : State} {q : Point} (hs : s.seq = .busy (.instr i) q)
    (hi : i.WellFormed) (hinv : PulseInv s) (h : CycleCommandStep i s t) : PulseInv t := by
  cases h with
  | refused st => exact pulseInv_of_offCycle (c := .instr i) (.inl rfl) hi hinv.gain hinv.bound
  | @cycle p u _ start next =>
    have hne := cycleGain_ne_zero hi hinv.gain
    obtain ⟨hn, hcont⟩ := cycleStep_pulses hne (start.pulses hs hinv)
    have hgain : t.gain = cycleGain (.instr i) s := by rw [next.gain, cycleStep_gain, start.gain hs hinv]
    have hrun := cycleGain_idem hgain
    cases next with
    | cont p hp =>
      obtain ⟨hpulses, hpolls⟩ := hcont p hp
      exact pulseInv_of_cycle rfl hi hne hgain hrun ⟨hpulses, hpolls⟩
    | retry => exact pulseInv_of_cycle rfl hi hne hgain hrun (cyclePulses_start _ rfl rfl)
    | timeout | faulted | read | commit => exact pulseInv_of_offCycle (c := .instr i) (.inl rfl) hi (hgain.trans_ne hne) hn

/-- Every step keeps the counters and the gain as 10_state R25 and R32 have them. -/
theorem step_pulseInv {s t : State} (h : step s = .next t) : PulseInv s → PulseInv t := by
  refine step_cases (motive := fun s t => PulseInv s → PulseInv t) ?idle ?accept ?answered ?init ?release ?cycle s t h
  case idle => exact fun s _ _ hinv => hinv
  case accept =>
    intro s w ws _ _ hinv
    exact pulseInv_of_offCycle (.inr ⟨.start, rfl, nofun⟩) (decode_legal w) hinv.gain hinv.bound
  case answered =>
    exact fun s c p hs _ hinv => pulseInv_of_offCycle (.inl rfl) (hinv.cmd c p hs) hinv.gain hinv.bound
  case init =>
    intro s g p _ hg hinv
    have gain : (initStep g s).gain ≠ 0#2 := by
      obtain ⟨-, hdone⟩ | keeps := initStep_done_or_keeps g s
      · exact hdone ▸ hg
      · exact keeps.gain ▸ hinv.gain
    exact pulseInv_of_offCycle (offCycle_initStep g s) (decide_eq_true hg) gain ((dataKept_initStep g s).n ▸ hinv.bound)
  case release =>
    intro s p _ hinv
    have h := sessionKeeps_releaseStep s
    exact pulseInv_of_offCycle (offCycle_releaseStep s) rfl (h.gain ▸ hinv.gain) (h.n ▸ hinv.bound)
  case cycle => exact fun s i p t hs _ hi h hinv => pulseInv_cycleCommandStep hs hi hinv h

end Sys2Proof.Machine

namespace Sys2Proof.Machine

open Sys2Proof.Safety

/-! ### The lines (10_state R28 to R30) -/

/-- The invariant of a state that rests. -/
theorem lineInv_of_idle {t : State} (h : t.seq = .idle) (undriven : t.clockOwned = false → t.clockLevel = .undriven)
    (chip : t.life ≠ .ready → t.chipMode = .unknown) (rest : restLines t) : LineInv t where
  cmd _ _ hs := nomatch h.symm.trans hs
  undriven := undriven
  chip := chip
  rest _ := rest
  lines _ _ hs := nomatch h.symm.trans hs

/-- The invariant of a state at a point of the command `c`. -/
theorem lineInv_of_busy {t : State} {c : Cmd} {p : Point} (h : t.seq = .busy c p) (legal : CmdLegal c)
    (undriven : t.clockOwned = false → t.clockLevel = .undriven) (chip : t.life ≠ .ready → t.chipMode = .unknown)
    (own : pointOf c p = true) (lines : linesAt t p) : LineInv t where
  cmd c' p' hs := by
    obtain ⟨rfl, -⟩ := Seq.busy.inj (h.symm.trans hs)
    exact legal
  undriven := undriven
  chip := chip
  rest hs := nomatch h.symm.trans hs
  lines c' p' hs := by
    obtain ⟨rfl, rfl⟩ := Seq.busy.inj (h.symm.trans hs)
    exact ⟨own, lines⟩

/-- At the point a command stands at: the point is one of its own, and has the lines. -/
theorem lines_of_point {s : State} {c : Cmd} {p q : Point} (h : LineInv s) (hs : s.seq = .busy c p)
    (hq : s.seq.point = q) : pointOf c q = true ∧ linesAt s q :=
  h.lines c q (eq_of_seq_point hs hq ▸ hs)

/-- The commands that have a release point, and the line left for it. -/
theorem command_of_tear {c : Cmd} {l : Line} (own : pointOf c (.tear l) = true) :
    l = .data ∧ ((∃ g, c = .instr (.init g)) ∨ c = .instr .release) := by
  obtain (g | _ | _ | _) | _ := c
  case instr.init => cases l; exacts [⟨rfl, .inl ⟨g, rfl⟩⟩, nomatch own]
  case instr.release => cases l; exacts [⟨rfl, .inr rfl⟩, nomatch own]
  case reserved => simp [pointOf] at own
  all_goals exact nomatch own

theorem command_of_cfgData {c : Cmd} (own : pointOf c .cfgData = true) : ∃ g, c = .instr (.init g) := by
  obtain (g | _ | _ | _) | _ := c
  case instr.init => exact ⟨g, rfl⟩
  case reserved => simp [pointOf] at own
  all_goals exact nomatch own

theorem restLines_ready {s : State} (h : s.life = .ready) (ho : owns s true true) (hc : s.clockLevel = .low) :
    restLines s := by
  simp only [restLines, h]
  exact ⟨ho, hc⟩

theorem restLines_faulted {s : State} (h : s.life = .faulted) (ho : owns s true true) : restLines s := by
  simp only [restLines, h]
  exact ho

theorem restLines_uninit {s : State} (h : s.life = .uninit) (ho : owns s false false) : restLines s := by
  simp only [restLines, h]
  exact ho

theorem owns_of_ready {s : State} (h : restLines s) (hl : s.life = .ready) : owns s true true ∧ s.clockLevel = .low := by
  simpa only [restLines, hl] using h

theorem owns_of_session {s : State} (h : restLines s) (hl : s.life ≠ .uninit) : owns s true true := by
  rcases hs : s.life with _ | _ | _
  · exact absurd hs hl
  · exact (owns_of_ready h hs).1
  · simpa only [restLines, hs] using h

theorem owns_of_uninit {s : State} (h : restLines s) (hl : s.life = .uninit) : owns s false false := by
  simpa only [restLines, hl] using h

theorem heldLine_eq_some {s : State} {l : Line} (h : s.heldLine = some l) :
    (l = .clock ∧ s.clockOwned = true) ∨ (l = .data ∧ owns s true false) := by
  rcases hc : s.clockOwned with _ | _
  · rcases hd : s.dataOwned with _ | _
    · rw [heldLine_none hc hd] at h
      exact nomatch h
    · rw [heldLine_data hc hd] at h
      exact .inr ⟨(Option.some.inj h).symm, hd, hc⟩
  · rw [heldLine_clock hc] at h
    exact .inl ⟨(Option.some.inj h).symm, rfl⟩

/-! #### READ and SET_GAIN -/

/-- The clock at the end of a step of the cycle; after a fault it is as the failing primitive left it (60_exceptions R204). -/
def clockAfter : CycleEnd → ClockLevel → Prop
  | .cont p, l => l = clockAt p
  | .timeout, l => l = .low
  | .faulted, _ => True
  | .done, l => l = .low

theorem cycleStep_clock {p : CyclePoint} {s : State} (g : GainCode) (h : s.clockLevel = clockAt p) :
    clockAfter (cycleStep g p s).1 (cycleStep g p s).2.clockLevel := by
  refine cycleStep_rec (motive := fun r => clockAfter r.1 r.2.clockLevel) g p s ?pollZero ?pollOne ?pollLimit ?readErr
    ?riseData ?sampleBit ?fallData ?fallLastData ?riseMode ?fallMode ?fallLast ?writeErr
  case pollZero | pollOne => rintro rfl; intros; exact h
  case pollLimit => rintro _ rfl; intros; exact h
  case sampleBit => rintro _ _ rfl; intros; exact h
  case riseData | riseMode | fallData | fallLastData | fallMode | fallLast => intros; rfl
  case readErr | writeErr => intros; trivial

/-- READ and SET_GAIN stand at their start where they are at no point of the cycle. -/
theorem restLines_of_offCycle {i : Instr} {s : State} {q : Point} (hinv : LineInv s) (hs : s.seq = .busy (.instr i) q)
    (hi : RunsCycle i) (hp : ∀ p, s.seq.point ≠ .cyc p) : restLines s := by
  obtain ⟨own, lines⟩ := hinv.lines _ _ hs
  have hq : q = .start := by
    rw [hs] at hp
    cases q with
    | start => rfl
    | cyc p => exact absurd rfl (hp p)
    | _ => obtain rfl | ⟨g, rfl⟩ := hi <;> exact nomatch own
  subst hq
  exact lines

/-- A read cycle runs in READY, with both lines held and the clock as its point has it. -/
theorem CycleFrom.lines {i : Instr} {s u : State} {p : CyclePoint} {q : Point} (h : CycleFrom i s p u)
    (hs : s.seq = .busy (.instr i) q) (hi : RunsCycle i) (hinv : LineInv s) :
    s.life = .ready ∧ owns s true true ∧ u.clockLevel = clockAt p := by
  cases h with
  | point p hp => exact (lines_of_point hinv hs hp).2
  | start hp hl => exact ⟨hl, owns_of_ready (restLines_of_offCycle hinv hs hi hp) hl⟩

theorem lineInv_cycleCommandStep {i : Instr} {s t : State} {q : Point} (hs : s.seq = .busy (.instr i) q)
    (hi : RunsCycle i) (hinv : LineInv s) (h : CycleCommandStep i s t) : LineInv t := by
  cases h with
  | refused st hp =>
    have rest := restLines_of_offCycle hinv hs hi hp
    exact lineInv_of_idle rfl hinv.undriven hinv.chip rest
  | @cycle p u _ start next =>
    obtain ⟨hlife, ⟨hdata, hclock⟩, hu⟩ := start.lines hs hi hinv
    have keeps := start.keeps_cycleStep (cycleGain (.instr i) s)
    have level := cycleStep_clock (cycleGain (.instr i) s) hu
    have life := keeps.life.trans hlife
    have lines : owns (cycleStep (cycleGain (.instr i) s) p u).2 true true :=
      ⟨keeps.dataOwned.trans hdata, keeps.clockOwned.trans hclock⟩
    have undriven {v : ClockLevel} (hc : (cycleStep (cycleGain (.instr i) s) p u).2.clockOwned = false) :
        (cycleStep (cycleGain (.instr i) s) p u).2.clockLevel = v := nomatch lines.2.symm.trans hc
    have legal := hinv.cmd _ _ hs
    have own (p : CyclePoint) : pointOf (.instr i) (.cyc p) = true := by
      obtain rfl | ⟨g, rfl⟩ := hi <;> rfl
    cases next with
    | cont p hp =>
      rw [hp] at level
      exact lineInv_of_busy rfl legal undriven (absurd life) (own p) ⟨life, lines, level⟩
    | retry hr =>
      rw [hr] at level
      exact lineInv_of_busy rfl legal undriven (absurd life) (own .rw) ⟨life, lines, level⟩
    | faulted => exact lineInv_of_idle rfl undriven (fun _ => rfl) (restLines_faulted rfl lines)
    | timeout hr | read hr | commit hr =>
      rw [hr] at level
      exact lineInv_of_idle rfl undriven (absurd life) (restLines_ready life lines level)

/-! #### INIT and RELEASE -/

/-- INIT's teardown at `fail` releases what has been acquired, the clock first. -/
theorem lineInv_initFail {g : GainCode} {u : State} (hg : g ≠ 0#2) (life : u.life = .uninit)
    (chip : u.chipMode = .unknown) (undriven : u.clockOwned = false → u.clockLevel = .undriven)
    (data : u.clockOwned = true → u.dataOwned = true) : LineInv (initFail (.init g) u) := by
  refine initFail_rec (.init g) u (fun l hl => ?_) (fun hc hd => ?_)
  · have lines : owns u true (decide (l = .clock)) := by
      obtain ⟨rfl, hc⟩ | ⟨rfl, lines⟩ := heldLine_eq_some hl
      · exact ⟨data hc, hc⟩
      · exact lines
    exact lineInv_of_busy rfl (decide_eq_true hg) undriven (fun _ => chip) rfl ⟨life, lines⟩
  · exact lineInv_of_idle rfl undriven (fun _ => rfl) (restLines_uninit rfl ⟨hd, hc⟩)

/-- A session whose teardown has released the clock, life still the one before (log entry 7). -/
structure ClockReleased (s : State) : Prop where
  life : s.life ≠ .uninit
  chip : s.life ≠ .ready → s.chipMode = .unknown
  clock : s.clockOwned = false
  level : s.clockLevel = .undriven

/-- The releases of a teardown begin with the clock, so that it is released after the first. -/
theorem clockReleased_afterRelease {s : State} {l : Line} (hinv : LineInv s) (life : s.life ≠ .uninit)
    (hl : l = .clock ∨ s.clockOwned = false) : ClockReleased (afterRelease l s) := by
  cases l with
  | clock => rw [afterRelease_clock]; exact ⟨life, hinv.chip, rfl, rfl⟩
  | data =>
    have hc : s.clockOwned = false := hl.resolve_left nofun
    rw [afterRelease_data]
    exact ⟨life, hinv.chip, hc, hinv.undriven hc⟩

theorem ClockReleased.heldLine {s : State} {l : Line} (h : ClockReleased s) (hl : s.heldLine = some l) :
    l = .data ∧ owns s true false := by
  obtain ⟨-, hc⟩ | hd := heldLine_eq_some hl
  · exact nomatch hc.symm.trans h.clock
  · exact hd

theorem ClockReleased.lineInv_initTorn {g : GainCode} {u : State} (h : ClockReleased u) (hg : g ≠ 0#2) :
    LineInv (initTorn (.init g) u) := by
  refine initTorn_rec (.init g) u (fun l hl => ?_) (fun hc hd => ?_)
  · obtain ⟨rfl, lines⟩ := h.heldLine hl
    exact lineInv_of_busy rfl (decide_eq_true hg) (fun _ => h.level) h.chip rfl ⟨h.life, lines⟩
  · exact lineInv_of_busy rfl (decide_eq_true hg) (fun _ => h.level) h.chip rfl ⟨hd, hc⟩

theorem ClockReleased.lineInv_releaseTorn {u : State} (h : ClockReleased u) : LineInv (releaseTorn u) := by
  refine releaseTorn_rec u (fun l hl => ?_) (fun hc hd => ?_)
  · obtain ⟨rfl, lines⟩ := h.heldLine hl
    exact lineInv_of_busy rfl rfl (fun _ => h.level) h.chip rfl ⟨h.life, lines⟩
  · exact lineInv_of_idle rfl (fun _ => h.level) (fun _ => rfl) (restLines_uninit rfl ⟨hd, hc⟩)

/-- Out of UNINIT chip mode is UNKNOWN already, so ending a teardown there changes nothing either (log entry 12). -/
theorem endTeardown_eq {s : State} (hinv : LineInv s) : endTeardown s = closeTeardown s := by
  by_cases hl : s.life = .uninit
  · have hc : s.chipMode = .unknown := hinv.chip (by simp [hl])
    rw [endTeardown, if_pos hl, closeTeardown, ← hl, ← hc]
  · exact endTeardown_session hl

/-- INIT begins at its start only: the points of a read cycle are none of its own. -/
theorem restLines_of_initBegins {g : GainCode} {s : State} {q : Point} (hinv : LineInv s)
    (hs : s.seq = .busy (.instr (.init g)) q) (h : InitBegins s.seq.point) : restLines s := by
  generalize hp : s.seq.point = p at h
  obtain ⟨own, lines⟩ := lines_of_point hinv hs hp
  cases h with
  | start => exact lines
  | cyc p => exact nomatch own

/-- INIT configures the data line with no line held. -/
theorem owns_of_cfgData {g : GainCode} {s : State} {q : Point} (hinv : LineInv s)
    (hs : s.seq = .busy (.instr (.init g)) q)
    (h : s.seq.point = .cfgData ∨ (InitBegins s.seq.point ∧ (s.life = .uninit ∨ s.heldLine = none))) :
    owns s false false := by
  obtain hp | ⟨hp, hl | hn⟩ := h
  · exact (lines_of_point hinv hs hp).2
  · exact owns_of_uninit (restLines_of_initBegins hinv hs hp) hl
  · obtain ⟨l, hl⟩ | ⟨-, hc, hd⟩ := heldLine_cases s
    · exact nomatch hn.symm.trans hl
    · exact ⟨hd, hc⟩

theorem lineInv_initStep {g : GainCode} {s : State} {q : Point} (hs : s.seq = .busy (.instr (.init g)) q)
    (hg : g ≠ 0#2) (hinv : LineInv s) : LineInv (initStep g s) := by
  have legal : CmdLegal (.instr (.init g)) := decide_eq_true hg
  have uninit (hl : s.life = .uninit) : s.chipMode = .unknown := hinv.chip (by simp [hl])
  refine initStep_rec g s ?tearFirst ?tear ?dataOk ?dataErr ?clockOk ?clockErr ?lowOk ?lowErr ?failTear
  case tearFirst =>
    intro l hp hl hheld
    obtain ⟨-, hc⟩ := owns_of_session (restLines_of_initBegins hinv hs hp) hl
    have hclock : l = .clock := Option.some.inj (hheld.symm.trans (heldLine_clock hc))
    exact (clockReleased_afterRelease hinv hl (.inl hclock)).lineInv_initTorn hg
  case tear =>
    intro l hp
    obtain ⟨-, hl, -, hc⟩ := lines_of_point hinv hs hp
    exact (clockReleased_afterRelease hinv hl (.inr hc)).lineInv_initTorn hg
  case dataOk =>
    rintro u rfl hp -
    obtain ⟨-, hc⟩ := owns_of_cfgData hinv hs hp
    rw [endTeardown_eq hinv]
    exact lineInv_of_busy rfl legal (fun _ => hinv.undriven hc) (fun _ => rfl) rfl ⟨rfl, rfl, hc⟩
  case dataErr =>
    rintro u rfl hp -
    obtain ⟨-, hc⟩ := owns_of_cfgData hinv hs hp
    rw [endTeardown_eq hinv]
    exact lineInv_initFail hg rfl rfl hinv.undriven (fun h => nomatch hc.symm.trans h)
  case clockOk =>
    intro hp _
    obtain ⟨-, hl, hd, -⟩ := lines_of_point hinv hs hp
    exact lineInv_of_busy rfl legal nofun (fun _ => uninit hl) rfl ⟨hl, hd, rfl⟩
  case clockErr =>
    intro hp _
    obtain ⟨-, hl, hd, -⟩ := lines_of_point hinv hs hp
    exact lineInv_initFail hg hl (uninit hl) hinv.undriven (fun _ => hd)
  case lowOk =>
    intro hp _
    obtain ⟨-, hl, hd, hc⟩ := lines_of_point hinv hs hp
    exact lineInv_of_idle rfl (fun h => nomatch hc.symm.trans h) (fun h => absurd rfl h)
      (restLines_ready rfl ⟨hd, hc⟩ rfl)
  case lowErr =>
    intro hp _
    obtain ⟨-, hl, hd, hc⟩ := lines_of_point hinv hs hp
    exact lineInv_initFail hg hl (uninit hl) (fun h => nomatch hc.symm.trans h) (fun _ => hd)
  case failTear =>
    intro l hp
    obtain ⟨-, hl, hd, hc⟩ := lines_of_point hinv hs hp
    cases l with
    | clock => rw [afterRelease_clock]; exact lineInv_initFail hg hl (uninit hl) (fun _ => rfl) nofun
    | data =>
      rw [afterRelease_data]
      exact lineInv_initFail hg hl (uninit hl) hinv.undriven (fun h => nomatch hc.symm.trans h)

/-- RELEASE stands at its start, or at the release of the data line. -/
theorem restLines_of_release {s : State} {q : Point} (hinv : LineInv s) (hs : s.seq = .busy (.instr .release) q)
    (hp : ∀ l, s.seq.point ≠ .tear l) : restLines s := by
  obtain ⟨own, lines⟩ := hinv.lines _ _ hs
  have hq : q = .start := by
    rw [hs] at hp
    cases q with
    | start => rfl
    | tear l => exact absurd rfl (hp l)
    | _ => exact nomatch own
  subst hq
  exact lines

theorem lineInv_releaseStep {s : State} {q : Point} (hs : s.seq = .busy (.instr .release) q) (hinv : LineInv s) :
    LineInv (releaseStep s) := by
  refine releaseStep_rec s ?tear ?clock ?data ?none
  case tear =>
    intro l hp
    obtain ⟨-, hl, -, hc⟩ := lines_of_point hinv hs hp
    exact (clockReleased_afterRelease hinv hl (.inr hc)).lineInv_releaseTorn
  case clock =>
    intro hp hc
    have hl : s.life ≠ .uninit := fun hl =>
      nomatch hc.symm.trans (owns_of_uninit (restLines_of_release hinv hs hp) hl).2
    exact (clockReleased_afterRelease hinv hl (.inl rfl)).lineInv_releaseTorn
  case data =>
    intro hp hc hd
    have hl : s.life ≠ .uninit := fun hl =>
      nomatch hd.symm.trans (owns_of_uninit (restLines_of_release hinv hs hp) hl).1
    exact (clockReleased_afterRelease hinv hl (.inr hc)).lineInv_releaseTorn
  case none =>
    intro _ hc hd
    exact lineInv_of_idle rfl (fun _ => hinv.undriven hc) (fun _ => rfl) (restLines_uninit rfl ⟨hd, hc⟩)

/-- Every step keeps lines, clock level and chip mode in agreement with life and sequencer (10_state R28 to R30). -/
theorem step_lineInv {s t : State} (h : step s = .next t) : LineInv s → LineInv t := by
  refine step_cases (motive := fun s t => LineInv s → LineInv t) ?idle ?accept ?answered ?init ?release ?cycle s t h
  case idle => exact fun s _ _ hinv => hinv
  case accept =>
    intro s w ws hs _ hinv
    have own : pointOf (decode w) .start = true := by
      obtain (_ | _ | _ | _) | _ := decode w <;> rfl
    exact lineInv_of_busy rfl (decode_legal w) hinv.undriven hinv.chip own (hinv.rest hs)
  case answered =>
    intro s c p hs hc hinv
    obtain ⟨r, rfl⟩ := hc (hinv.cmd c p hs)
    obtain ⟨own, lines⟩ := hinv.lines _ p hs
    obtain rfl : p = .start := of_decide_eq_true own
    exact lineInv_of_idle rfl hinv.undriven hinv.chip lines
  case init => exact fun s g p hs hg hinv => lineInv_initStep hs hg hinv
  case release => exact fun s p hs hinv => lineInv_releaseStep hs hinv
  case cycle => exact fun s i p t hs hi _ h hinv => lineInv_cycleCommandStep hs hi hinv h

end Sys2Proof.Machine

namespace Sys2Proof.Machine

open Sys2Proof.Safety

/-! ### A line is used only while it is held (40_sequencer R101, R102) -/

/-- The line the event's primitive reads or writes is held; to configure or release a line it need not be. -/
def HeldFor (s : State) : Event → Prop
  | .rd _ => s.dataOwned = true
  | .wr _ _ => s.clockOwned = true
  | .cfg _ _ _ => True
  | .rel _ _ => True

/-- From `s` to `t` no event is recorded, or one whose line is held. -/
def UsesHeld (s t : State) : Prop :=
  t.trace = s.trace ∨ ∃ e, t.trace = s.trace ++ [e] ∧ HeldFor s e

theorem heldFor_of_owns {s : State} (h : owns s true true) (e : Event) : HeldFor s e := by
  obtain ⟨hd, hc⟩ := h
  cases e with
  | rd => exact hd
  | wr => exact hc
  | _ => trivial

theorem usesHeld_event {s u t : State} {e : Event} (hu : u.trace = s.trace ++ [e]) (he : HeldFor s e) (hq : Quiet u t) :
    UsesHeld s t :=
  .inr ⟨e, hq.trace.trans hu, he⟩

theorem usesHeld_afterRelease {s t : State} (l : Line) (hq : Quiet (afterRelease l s) t) : UsesHeld s t :=
  usesHeld_event (e := .rel l s.nextCap) rfl trivial hq

theorem usesHeld_initStep {g : GainCode} {s : State} {q : Point} (hs : s.seq = .busy (.instr (.init g)) q)
    (hinv : LineInv s) : UsesHeld s (initStep g s) := by
  have driven (hp : s.seq.point = .driveLow) : s.clockOwned = true := by
    obtain ⟨-, -, -, hc⟩ := lines_of_point hinv hs hp
    exact hc
  have torn (e : Event) : ((endTeardown s).popCap.record e).trace = s.trace ++ [e] :=
    congrArg (· ++ [e]) (quiet_endTeardown s).trace
  exact initStep_rec g s
    (tearFirst := fun l _ _ _ => usesHeld_afterRelease l (quiet_initTorn _ _))
    (tear := fun l _ => usesHeld_afterRelease l (quiet_initTorn _ _))
    (dataOk := fun _ hu _ _ => hu ▸ usesHeld_event (torn (.cfg .data .input .ok)) trivial ⟨rfl, rfl, rfl, rfl⟩)
    (dataErr := fun _ hu _ _ => hu ▸ usesHeld_event (torn (.cfg .data .input .err)) trivial (quiet_initFail _ _))
    (clockOk := fun _ _ => usesHeld_event (e := .cfg .clock .output .ok) rfl trivial ⟨rfl, rfl, rfl, rfl⟩)
    (clockErr := fun _ _ => usesHeld_event (e := .cfg .clock .output .err) rfl trivial (quiet_initFail _ _))
    (lowOk := fun hp _ => usesHeld_event (e := .wr false .ok) rfl (driven hp) ⟨rfl, rfl, rfl, rfl⟩)
    (lowErr := fun hp _ => usesHeld_event (e := .wr false .err) rfl (driven hp) (quiet_initFail _ _))
    (failTear := fun l _ => usesHeld_afterRelease l (quiet_initFail _ _))

theorem usesHeld_releaseStep (s : State) : UsesHeld s (releaseStep s) :=
  have torn (l : Line) : UsesHeld s (releaseTorn (afterRelease l s)) := usesHeld_afterRelease l (quiet_releaseTorn _)
  releaseStep_rec s (fun l _ => torn l) (fun _ _ => torn .clock) (fun _ _ _ => torn .data) (fun _ _ _ => .inl rfl)

theorem usesHeld_cycleCommandStep {i : Instr} {s t : State} {q : Point} (hs : s.seq = .busy (.instr i) q)
    (hi : RunsCycle i) (hinv : LineInv s) (h : CycleCommandStep i s t) (hstep : step s = .next t) :
    UsesHeld s t := by
  cases h with
  | refused => exact .inl rfl
  | cycle start _ =>
    obtain ⟨-, lines, -⟩ := start.lines hs hi hinv
    rcases step_atMostOne hstep with hq | ⟨htr, -, -⟩ | ⟨e, -, htr, -, -⟩
    · exact .inl hq.trace
    · exact .inr ⟨_, htr, heldFor_of_owns lines _⟩
    · exact .inr ⟨e, htr, heldFor_of_owns lines e⟩

theorem step_usesHeld {s t : State} (h : step s = .next t) (hinv : LineInv s) : UsesHeld s t := by
  refine step_cases (motive := fun s t => LineInv s → step s = .next t → UsesHeld s t)
    ?idle ?accept ?answered ?init ?release ?cycle s t h hinv h
  case idle => exact fun s _ _ _ _ => .inl rfl
  case accept => exact fun s _ _ _ _ _ _ => .inl rfl
  case answered => exact fun s _ _ _ _ _ _ => .inl rfl
  case init => exact fun s g p hs _ hinv _ => usesHeld_initStep hs hinv
  case release => exact fun s _ _ _ _ => usesHeld_releaseStep s
  case cycle => exact fun s i p t hs hi _ h hinv hstep => usesHeld_cycleCommandStep hs hi hinv h hstep

theorem UsesHeld.of_event {s t : State} {e : Event} (h : UsesHeld s t) (ht : t.trace = s.trace ++ [e]) : HeldFor s e := by
  obtain hsame | ⟨e', ht', he⟩ := h
  · simp [ht] at hsame
  · obtain rfl : e' = e := by simpa [ht'] using ht
    exact he

/-! ### What a read-cycle step writes (10_state R26 to R28) -/

/-- Shifting in is doubling and adding the bit, in 24 bits: doubling leaves the low bit free, so that OR adds. -/
theorem shiftIn_eq_ofNat (acc : Raw) (b : Bool) : shiftIn acc b = BitVec.ofNat 24 (2 * acc.toNat + b.toNat) := by
  have doubled : acc <<< 1 = BitVec.ofNat 24 (2 * acc.toNat) := by
    apply BitVec.eq_of_toNat_eq
    simp [Nat.shiftLeft_eq, Nat.mul_comm]
  have free : (acc <<< 1) &&& (BitVec.ofBool b).setWidth 24 = 0#24 := by
    ext k _
    cases k <;> simp
  rw [shiftIn, ← BitVec.add_eq_or_of_and_eq_zero _ _ free, doubled, BitVec.ofNat_add]
  cases b <;> rfl

/-- Everything a step of the cycle at `p` can do to the accumulator. -/
inductive AccAfter (p : CyclePoint) (s : State) (r : CycleEnd × State) : Prop where
  | kept (acc : r.2.acc = s.acc)
  | cleared (ready : s.nextData = .bit false) (next : r.1 = .cont (.dh 0)) (acc : r.2.acc = 0#24)
  | shifted (k : Nat) (b : Bool) (point : p = .ds k) (bit : s.nextData = .bit b) (acc : r.2.acc = shiftIn s.acc b)

theorem cycleStep_acc (g : GainCode) (p : CyclePoint) (s : State) : AccAfter p s (cycleStep g p s) := by
  refine cycleStep_rec g p s ?pollZero ?pollOne ?pollLimit ?readErr ?riseData ?sampleBit ?fallData ?fallLastData
    ?riseMode ?fallMode ?fallLast ?writeErr
  case pollZero => exact fun _ hd => .cleared hd rfl rfl
  case sampleBit => exact fun k b hp hd => .shifted k b hp hd rfl
  all_goals intros; exact .kept rfl

/-- The state the last primitive of a completed cycle with mode `g` leaves (40_sequencer R117). -/
def cycleDone (g : GainCode) (s : State) : State :=
  { afterWrite false .ok s with n := s.n + 1, chipMode := .known g }

/-- A step of the cycle at `p` completes it, or leaves the chip mode. -/
inductive ChipModeAfter (g : GainCode) (p : CyclePoint) (s : State) (r : CycleEnd × State) : Prop where
  | done (j : Nat) (point : p = .ml j) (last : extra g ≤ j) (ok : s.nextCap = .ok) (eq : r = (.done, cycleDone g s))
  | kept (goes : r.1 ≠ .done) (chipMode : r.2.chipMode = s.chipMode)

theorem cycleStep_chipMode (g : GainCode) (p : CyclePoint) (s : State) : ChipModeAfter g p s (cycleStep g p s) := by
  refine cycleStep_rec g p s ?pollZero ?pollOne ?pollLimit ?readErr ?riseData ?sampleBit ?fallData ?fallLastData
    ?riseMode ?fallMode ?fallLast ?writeErr
  case fallLast => exact fun j hp hc hj => .done j hp (Nat.le_of_not_lt hj) hc rfl
  all_goals intros; exact .kept nofun rfl

/-- After a step of its cycle a command faults, or leaves life and chip mode. -/
theorem CycleThen.faulted_or_keeps {i : Instr} {r : CycleEnd × State} {t : State} (h : CycleThen i r t) :
    (r.1 = .faulted ∧ t = raiseFaulted r.2) ∨ (t.life = r.2.life ∧ t.chipMode = r.2.chipMode) := by
  cases h with
  | faulted h => exact .inl ⟨h, rfl⟩
  | _ => exact .inr ⟨rfl, rfl⟩

/-- Only a READ that has completed its cycle writes the result. -/
theorem CycleThen.readDone_or_result {i : Instr} {r : CycleEnd × State} {t : State} (h : CycleThen i r t) :
    (i = .read ∧ r.1 = .done ∧ t = readDone r.2) ∨ t.result = r.2.result := by
  cases h with
  | read h hi => exact .inl ⟨hi, h, rfl⟩
  | _ => exact .inr rfl

theorem CycleThen.responses {i : Instr} {r : CycleEnd × State} {t : State} (h : CycleThen i r t) :
    r.2.responses <+: t.responses := by
  cases h with
  | cont | retry => exact List.prefix_rfl
  | _ => exact List.prefix_append _ _

/-! ### What a step of RELEASE does to life (41_session R139) -/

/-- RELEASE keeps life, or responds OK with life UNINIT. -/
def ReleasesLife (s t : State) : Prop :=
  t.life = s.life ∨ (t.life = .uninit ∧ t.seq = .idle ∧ t.rspStatus = Status.ok.code)

theorem releasesLife_releaseTorn (s : State) : ReleasesLife s (releaseTorn s) :=
  releaseTorn_rec s (fun _ _ => .inl rfl) (fun _ _ => .inr ⟨rfl, rfl, rfl⟩)

theorem releasesLife_releaseStep (s : State) : ReleasesLife s (releaseStep s) :=
  have torn (l : Line) : ReleasesLife s (releaseTorn (afterRelease l s)) := releasesLife_releaseTorn (afterRelease l s)
  releaseStep_rec s (fun l _ => torn l) (fun _ _ => torn .clock) (fun _ _ _ => torn .data)
    (fun _ _ _ => .inr ⟨rfl, rfl, rfl⟩)

/-! ### Parameters and responses (10_state R34, R37) -/

theorem step_params_responses {s t : State} (h : step s = .next t) :
    t.params = s.params ∧ s.responses <+: t.responses := by
  refine step_cases (motive := fun s t => t.params = s.params ∧ s.responses <+: t.responses)
    ?idle ?accept ?answered ?init ?release ?cycle s t h
  case idle => exact fun s _ _ => ⟨rfl, List.prefix_rfl⟩
  case accept => exact fun s _ _ _ _ => ⟨rfl, List.prefix_rfl⟩
  case answered => exact fun s _ _ _ _ => ⟨rfl, List.prefix_append _ _⟩
  case init => exact fun s g _ _ _ => ⟨(dataKept_initStep g s).params, (dataKept_initStep g s).responses⟩
  case release => exact fun s _ _ => ⟨(sessionKeeps_releaseStep s).params, (sessionKeeps_releaseStep s).responses⟩
  case cycle =>
    intro s i p t _ _ _ h
    cases h with
    | refused => exact ⟨rfl, List.prefix_append _ _⟩
    | cycle start next =>
      have keeps := start.keeps_cycleStep (cycleGain (.instr i) s)
      exact ⟨next.params.trans keeps.params, keeps.responses ▸ next.responses⟩

end Sys2Proof.Machine

namespace Sys2Proof.Machine

open Sys2Proof.Safety

/-! ### No command reads the shadow fields (10_state R20)

`Blind forget f` says that `f` does the same to all but the shadow fields from a state without them. What a step does is
put together from such functions by composition and by case distinctions on fields that are not shadow fields. -/

/-- From a state without shadow fields `f` gives the same as from the state, but for what `forget` forgets. -/
def Blind {α : Type} (forget : α → α) (f : State → α) : Prop :=
  ∀ s, forget (f (forgetShadow s)) = forget (f s)

/-- The end of a step of the read cycle, and its state without the shadow fields. -/
def forgetCycle (r : CycleEnd × State) : CycleEnd × State := (r.1, forgetShadow r.2)

theorem Blind.comp {α : Type} {forget : α → α} {f : State → α} {u : State → State} (hf : Blind forget f)
    (hu : Blind forgetShadow u) : Blind forget fun s => f (u s) := by
  intro s
  rw [← hf (u (forgetShadow s)), hu s, hf]

/-- A case distinction on what the shadow fields do not tell, each case blind. -/
theorem blind_of_cases {α β : Type} {forget : α → α} {f : State → α} (key : State → β)
    (hkey : ∀ s, key (forgetShadow s) = key s)
    (h : ∀ b, ∃ u, (∀ s, key s = b → f s = u s) ∧ Blind forget u) : Blind forget f := by
  intro s
  obtain ⟨u, hu, hblind⟩ := h (key s)
  rw [hu s rfl, hu (forgetShadow s) (hkey s)]
  exact hblind s

/-! #### The read cycle -/

theorem blind_busyPoll : Blind forgetCycle busyPoll :=
  blind_of_cases (fun s => pollLimitReached (countPoll s)) (fun _ => rfl) fun
    | true => ⟨_, fun _ h => if_pos h, fun _ => rfl⟩
    | false => ⟨_, fun _ h => if_neg (by simp [h]), fun _ => rfl⟩

theorem blind_readyPoll : Blind forgetCycle readyPoll :=
  blind_of_cases State.nextData (fun _ => rfl) fun
    | .bit false => ⟨_, fun _ h => readyPoll_zero h, fun _ => rfl⟩
    | .bit true => ⟨_, fun _ h => readyPoll_one h, blind_busyPoll.comp fun _ => rfl⟩
    | .err => ⟨_, fun _ h => readyPoll_err h, fun _ => rfl⟩

theorem blind_sample (next : CyclePoint) : Blind forgetCycle (sample next) :=
  blind_of_cases State.nextData (fun _ => rfl) fun
    | .bit _ => ⟨_, fun _ h => sample_bit next h, fun _ => rfl⟩
    | .err => ⟨_, fun _ h => sample_err next h, fun _ => rfl⟩

theorem blind_pulseRise (next : CyclePoint) : Blind forgetCycle (pulseRise next) :=
  blind_of_cases State.nextCap (fun _ => rfl) fun
    | .ok => ⟨_, fun _ h => pulseRise_ok next h, fun _ => rfl⟩
    | .err => ⟨_, fun _ h => pulseRise_err next h, fun _ => rfl⟩

theorem blind_pulseFall {after : State → CycleEnd × State} (h : Blind forgetCycle after) :
    Blind forgetCycle (pulseFall after) :=
  blind_of_cases State.nextCap (fun _ => rfl) fun
    | .ok => ⟨_, fun _ hc => pulseFall_ok after hc, h.comp fun _ => rfl⟩
    | .err => ⟨_, fun _ hc => pulseFall_err after hc, fun _ => rfl⟩

theorem blind_afterDataPulse (i : Nat) : Blind forgetCycle (afterDataPulse i) := by
  intro s
  simp only [afterDataPulse]
  split <;> rfl

theorem blind_afterModePulse (g : GainCode) (j : Nat) : Blind forgetCycle (afterModePulse g j) := by
  intro s
  simp only [afterModePulse]
  split <;> rfl

theorem blind_cycleStep (g : GainCode) (p : CyclePoint) : Blind forgetCycle (cycleStep g p) := by
  cases p with
  | rw => exact blind_readyPoll
  | dh i => exact blind_pulseRise (.ds i)
  | ds i => exact blind_sample (.dl i)
  | dl i => exact blind_pulseFall (blind_afterDataPulse i)
  | mh j => exact blind_pulseRise (.ml j)
  | ml j => exact blind_pulseFall (blind_afterModePulse g j)

/-! #### READ and SET_GAIN -/

/-- What follows a step of the cycle is blind where it is so of the cycle's end and state. -/
theorem Blind.cycle {after : CycleEnd × State → State} {f : State → CycleEnd × State} (hf : Blind forgetCycle f)
    (h : ∀ r, forgetShadow (after (forgetCycle r)) = forgetShadow (after r)) :
    Blind forgetShadow fun s => after (f s) := by
  intro s
  rw [← h (f (forgetShadow s)), hf s, h]

theorem readAfter_forgetCycle (r : CycleEnd × State) :
    forgetShadow (readAfter (forgetCycle r)) = forgetShadow (readAfter r) := by
  obtain ⟨p | _ | _ | _, s⟩ := r
  case done =>
    have hr : retries (forgetShadow s) = retries s := rfl
    simp only [readAfter, forgetCycle, hr]
    split <;> rfl
  all_goals rfl

theorem setGainAfter_forgetCycle (g : GainCode) (r : CycleEnd × State) :
    forgetShadow (setGainAfter g (forgetCycle r)) = forgetShadow (setGainAfter g r) := by
  obtain ⟨p | _ | _ | _, s⟩ := r <;> rfl

theorem blind_whenReady {f : State → State} (h : Blind forgetShadow f) : Blind forgetShadow (whenReady f) :=
  blind_of_cases State.life (fun _ => rfl) fun
    | .uninit => ⟨_, fun _ hl => by rw [whenReady, hl], fun _ => rfl⟩
    | .faulted => ⟨_, fun _ hl => by rw [whenReady, hl], fun _ => rfl⟩
    | .ready => ⟨f, fun _ hl => by rw [whenReady, hl], h⟩

/-- READ runs its cycle with the stored gain, which is no shadow field. -/
theorem blind_cycleStep_gain (p : CyclePoint) : Blind forgetCycle fun s => cycleStep s.gain p s :=
  blind_of_cases State.gain (fun _ => rfl) fun g => ⟨cycleStep g p, fun _ h => by rw [h], blind_cycleStep g p⟩

theorem blind_readStep : Blind forgetShadow readStep := by
  have begins : Blind forgetShadow readBegin :=
    blind_whenReady (((blind_cycleStep_gain .rw).comp fun _ => rfl).cycle readAfter_forgetCycle)
  refine blind_of_cases (fun s => s.seq.point) (fun _ => rfl) fun q => ?_
  cases q with
  | cyc p =>
    exact ⟨_, fun _ h => by simp only [readStep, h], (blind_cycleStep_gain p).cycle readAfter_forgetCycle⟩
  | _ => exact ⟨readBegin, fun _ h => by simp only [readStep, h], begins⟩

theorem blind_setGainStep (g : GainCode) : Blind forgetShadow (setGainStep g) := by
  have begins : Blind forgetShadow (setGainBegin g) :=
    blind_whenReady (((blind_cycleStep g .rw).comp fun _ => rfl).cycle (setGainAfter_forgetCycle g))
  refine blind_of_cases (fun s => s.seq.point) (fun _ => rfl) fun q => ?_
  cases q with
  | cyc p =>
    exact ⟨_, fun _ h => by simp only [setGainStep, h], (blind_cycleStep g p).cycle (setGainAfter_forgetCycle g)⟩
  | _ => exact ⟨setGainBegin g, fun _ h => by simp only [setGainStep, h], begins⟩

/-! #### INIT and RELEASE -/

theorem blind_afterRelease (l : Line) : Blind forgetShadow (afterRelease l) := fun _ => rfl

theorem blind_releaseNext : Blind forgetShadow releaseNext :=
  blind_of_cases State.heldLine (fun _ => rfl) fun
    | some l => ⟨afterRelease l, fun _ h => releaseNext_held h, blind_afterRelease l⟩
    | none => ⟨id, fun _ h => by simp only [releaseNext, h, id], fun _ => rfl⟩

theorem blind_initFail (i : Instr) : Blind forgetShadow (initFail i) :=
  blind_of_cases State.heldLine (fun _ => rfl) fun
    | some _ => ⟨_, fun _ h => by rw [initFail, h], fun _ => rfl⟩
    | none => ⟨_, fun _ h => by rw [initFail, h], fun _ => rfl⟩

theorem blind_initTorn (i : Instr) : Blind forgetShadow (initTorn i) :=
  blind_of_cases State.heldLine (fun _ => rfl) fun
    | some _ => ⟨_, fun _ h => initTorn_held i h, fun _ => rfl⟩
    | none => ⟨_, fun _ h => initTorn_none i h, fun _ => rfl⟩

theorem blind_releaseTorn : Blind forgetShadow releaseTorn :=
  blind_of_cases State.heldLine (fun _ => rfl) fun
    | some _ => ⟨_, fun _ h => releaseTorn_held h, fun _ => rfl⟩
    | none => ⟨_, fun _ h => releaseTorn_none h, fun _ => rfl⟩

theorem blind_endTeardown : Blind forgetShadow endTeardown :=
  blind_of_cases (fun s => decide (s.life = .uninit)) (fun _ => rfl) fun
    | true => ⟨id, fun _ h => if_pos (of_decide_eq_true h), fun _ => rfl⟩
    | false => ⟨closeTeardown, fun _ h => if_neg (of_decide_eq_false h), fun _ => rfl⟩

theorem blind_acquireData (i : Instr) : Blind forgetShadow (acquireData i) :=
  blind_of_cases State.nextCap (fun _ => rfl) fun
    | .ok => ⟨_, fun _ h => acquireData_ok i h, fun _ => rfl⟩
    | .err => ⟨_, fun _ h => by rw [acquireData, lineConfigure_err _ _ h], (blind_initFail i).comp fun _ => rfl⟩

theorem blind_acquireClock (i : Instr) : Blind forgetShadow (acquireClock i) :=
  blind_of_cases State.nextCap (fun _ => rfl) fun
    | .ok => ⟨_, fun _ h => by rw [acquireClock, lineConfigure_ok _ _ h], fun _ => rfl⟩
    | .err => ⟨_, fun _ h => by rw [acquireClock, lineConfigure_err _ _ h], (blind_initFail i).comp fun _ => rfl⟩

theorem blind_driveClockLow (g : GainCode) : Blind forgetShadow (driveClockLow g) :=
  blind_of_cases State.nextCap (fun _ => rfl) fun
    | .ok => ⟨_, fun _ h => by rw [driveClockLow, lineWrite_ok _ h], fun _ => rfl⟩
    | .err => ⟨_, fun _ h => by rw [driveClockLow, lineWrite_err _ h], (blind_initFail _).comp fun _ => rfl⟩

theorem blind_initBegin (i : Instr) : Blind forgetShadow (initBegin i) :=
  blind_of_cases (fun s => decide (s.life ≠ .uninit ∧ s.heldLine ≠ none)) (fun _ => rfl) fun
    | true => ⟨_, fun _ h => if_pos (of_decide_eq_true h), (blind_initTorn i).comp blind_releaseNext⟩
    | false => ⟨_, fun _ h => if_neg (of_decide_eq_false h), (blind_acquireData i).comp blind_endTeardown⟩

theorem blind_initStep (g : GainCode) : Blind forgetShadow (initStep g) :=
  blind_of_cases (fun s => s.seq.point) (fun _ => rfl) fun
    | .start => ⟨_, fun _ h => by rw [initStep, h], blind_initBegin _⟩
    | .cyc _ => ⟨_, fun _ h => by rw [initStep, h], blind_initBegin _⟩
    | .tear l => ⟨_, fun _ h => by simp only [initStep, h]; rfl, (blind_initTorn (.init g)).comp (blind_afterRelease l)⟩
    | .cfgData => ⟨_, fun _ h => by rw [initStep, h], (blind_acquireData _).comp blind_endTeardown⟩
    | .cfgClock => ⟨_, fun _ h => by rw [initStep, h], blind_acquireClock _⟩
    | .driveLow => ⟨_, fun _ h => by rw [initStep, h], blind_driveClockLow g⟩
    | .failTear l => ⟨_, fun _ h => by simp only [initStep, h]; rfl, (blind_initFail (.init g)).comp (blind_afterRelease l)⟩

theorem blind_releaseStep : Blind forgetShadow releaseStep := by
  refine blind_of_cases (fun s => s.seq.point) (fun _ => rfl) fun q => ?_
  cases q with
  | tear l => exact ⟨_, fun _ h => by simp only [releaseStep, h]; rfl, blind_releaseTorn.comp (blind_afterRelease l)⟩
  | _ =>
    exact ⟨fun s => releaseTorn (releaseNext s), fun _ h => by simp only [releaseStep, h],
      blind_releaseTorn.comp blind_releaseNext⟩

/-! #### The machine -/

theorem blind_accept : Blind forgetShadow State.accept :=
  blind_of_cases State.pending (fun _ => rfl) fun
    | [] => ⟨id, fun _ h => by simp only [State.accept, h, id], fun _ => rfl⟩
    | _ :: _ => ⟨_, fun _ h => by simp only [State.accept, h]; rfl, fun _ => rfl⟩

theorem blind_answerReserved : Blind forgetShadow answerReserved := fun _ => rfl

/-- The meaning of an instruction as a function to the next state, which reads no shadow field. -/
theorem exec_blind (i : Instr) : ∃ f, (∀ s, exec i s = .next (f s)) ∧ Blind forgetShadow f := by
  cases i with
  | init g =>
    by_cases hg : g = 0#2
    · exact ⟨answerReserved, fun s => by rw [exec, execInit, if_pos hg], blind_answerReserved⟩
    · exact ⟨initStep g, fun s => exec_init s hg, blind_initStep g⟩
  | read => exact ⟨readStep, exec_read, blind_readStep⟩
  | setGain g =>
    by_cases hg : g = 0#2
    · exact ⟨answerReserved, fun s => by rw [exec, execSetGain, if_pos hg], blind_answerReserved⟩
    · exact ⟨setGainStep g, fun s => exec_setGain s hg, blind_setGainStep g⟩
  | release => exact ⟨releaseStep, exec_release, blind_releaseStep⟩

/-- The same of a step, by where the sequencer stands. -/
theorem step_blind (q : Seq) : ∃ f, (∀ s, s.seq = q → step s = .next (f s)) ∧ Blind forgetShadow f := by
  obtain _ | ⟨i | r, p⟩ := q
  · exact ⟨State.accept, fun s h => by rw [step, h], blind_accept⟩
  · obtain ⟨f, hf, hblind⟩ := exec_blind i
    exact ⟨f, fun s h => (step_busy h).trans (hf s), hblind⟩
  · exact ⟨answerReserved, fun s h => by rw [step, h], blind_answerReserved⟩

end Sys2Proof.Machine

namespace Sys2Proof.StateRules

open Sys2Proof.Machine Sys2Proof.Safety

/-- Settles O42, step by step of the table of 40_sequencer R120 (`cycleStep_pulses`); outside a read cycle no counter moves. -/
theorem pulseInvKept : Obligations.PulseInvKept :=
  fun _ _ hinv h => step_pulseInv h hinv

/-- Settles O44, command by command: each step is made with the lines its point names, and leaves those of the next. -/
theorem lineInvKept : Obligations.LineInvKept :=
  fun _ _ hinv h => step_lineInv h hinv

/-- Settles O47: READY at rest is a clause of the invariant (`step_lineInv`), and a step uses a line only while it is held
(`step_usesHeld`). -/
theorem linesHeldWhenUsed : Obligations.LinesHeldWhenUsed := by
  intro s t hinv h
  have uses := step_usesHeld h hinv
  refine ⟨fun hl hidle => ?_, uses.of_event, fun v => uses.of_event⟩
  obtain ⟨⟨hd, hc⟩, hlow⟩ := owns_of_ready ((step_lineInv h hinv).rest hidle) hl
  exact ⟨hlow, hd, hc⟩

/-- Settles O48, point by point: only a teardown stands with a line released and life not yet UNINIT. -/
theorem ownedByLife : Obligations.OwnedByLife := by
  intro s hinv
  refine ⟨fun hl => ?_, fun hl hidle => owns_of_uninit (hinv.rest hidle) hl⟩
  have session : s.life ≠ .uninit := by obtain hl | hl := hl <;> simp [hl]
  rcases hs : s.seq with _ | ⟨c, p⟩
  · exact .inl (owns_of_session (hinv.rest hs) session)
  obtain ⟨own, lines⟩ := hinv.lines c p hs
  cases p with
  | start => exact .inl (owns_of_session lines session)
  | cyc p => exact .inl lines.2.1
  | tear l =>
    obtain ⟨rfl, ⟨g, rfl⟩ | rfl⟩ := command_of_tear own
    · exact .inr (.inl ⟨lines.2, .inl ⟨g, rfl⟩⟩)
    · exact .inr (.inl ⟨lines.2, .inr rfl⟩)
  | cfgData =>
    obtain ⟨g, rfl⟩ := command_of_cfgData own
    exact .inr (.inr ⟨lines, g, rfl⟩)
  | cfgClock | driveLow | failTear => exact absurd lines.1 session

/-- Settles O50: INIT completes or gives the session up, RELEASE gives it up, and READ and SET_GAIN write life by a fault only
(`CycleThen.faulted_or_keeps`). -/
theorem lifeWriters : Obligations.LifeWriters := by
  unfold Obligations.LifeWriters
  refine step_cases ?idle ?accept ?answered ?init ?release ?cycle
  case idle | accept | answered => intros; exact absurd rfl ‹_ ≠ _›
  case init =>
    intro s g p hs _ hne
    refine .inl ⟨g, p, hs, ?_⟩
    obtain ⟨-, hdone⟩ | keeps := initStep_done_or_keeps g s
    · exact .inl (hdone ▸ ⟨rfl, rfl, rfl⟩)
    · obtain ⟨hl, -⟩ | ⟨hl, -⟩ := keeps.session
      · exact absurd hl hne
      · exact .inr hl
  case release =>
    intro s p hs hne
    exact .inr (.inl ⟨p, hs, (releasesLife_releaseStep s).resolve_left hne⟩)
  case cycle =>
    intro s i p t hs hi _ h hne
    refine .inr (.inr ⟨i, p, hs, hi, ?_⟩)
    cases h with
    | refused => exact absurd rfl hne
    | cycle start next =>
      obtain ⟨-, rfl⟩ | ⟨hl, -⟩ := next.faulted_or_keeps
      · exact ⟨rfl, rfl, rfl⟩
      · exact absurd (hl.trans (start.keeps_cycleStep _).life) hne

/-- Settles O52: INIT's last step stores its operand; a cycle keeps the gain, so SET_GAIN writes it only where the cycle
begins. -/
theorem gainWriters : Obligations.GainWriters := by
  unfold Obligations.GainWriters
  refine step_cases ?idle ?accept ?answered ?init ?release ?cycle
  case idle | accept | answered => intros; exact absurd rfl ‹_ ≠ _›
  case init =>
    intro s g p hs _ hne
    obtain ⟨hp, hdone⟩ | keeps := initStep_done_or_keeps g s
    · obtain rfl := eq_of_seq_point hs hp
      exact .inl ⟨g, hs, hdone ▸ ⟨rfl, rfl, rfl⟩⟩
    · exact absurd keeps.gain hne
  case release => exact fun s p _ hne => absurd (sessionKeeps_releaseStep s).gain hne
  case cycle =>
    intro s i p t hs hi _ h hne
    cases h with
    | refused => exact absurd rfl hne
    | cycle start next =>
      have hgain := next.gain.trans (cycleStep_gain _ _ _)
      cases start with
      | point => exact absurd hgain hne
      | start hp hl =>
        obtain rfl | ⟨g, rfl⟩ := hi
        · exact absurd hgain hne
        · rw [hs] at hp
          exact .inr ⟨g, p, hs, hp, hl, hgain⟩

/-- Settles O53: READ writes the result where its cycle is done, and the last primitive of a cycle keeps the accumulator. -/
theorem resultWriters : Obligations.ResultWriters := by
  unfold Obligations.ResultWriters
  refine step_cases ?idle ?accept ?answered ?init ?release ?cycle
  case idle | accept | answered => intros; exact absurd rfl ‹_ ≠ _›
  case init => exact fun s g p _ _ hne => absurd (dataKept_initStep g s).result hne
  case release => exact fun s p _ hne => absurd (sessionKeeps_releaseStep s).result hne
  case cycle =>
    intro s i q t hs _ _ h hne
    cases h with
    | refused => exact absurd rfl hne
    | @cycle p u _ start next =>
      obtain ⟨rfl, hend, rfl⟩ | hresult := next.readDone_or_result
      · obtain ⟨j, rfl, -, -, hdone⟩ | ⟨hgoes, -⟩ := cycleStep_chipMode (cycleGain (.instr .read) s) p u
        · obtain ⟨rfl, hp⟩ := start.eq_of_ne_rw nofun
          obtain rfl := eq_of_seq_point hs hp
          exact ⟨j, hs, hdone ▸ ⟨rfl, rfl, rfl, rfl⟩⟩
        · exact absurd hend hgoes
      · exact absurd (hresult.trans (start.keeps_cycleStep _).result) hne

/-- Settles O54 by what a step of the cycle can do to the accumulator (`cycleStep_acc`). -/
theorem accWriters : Obligations.AccWriters := by
  unfold Obligations.AccWriters
  refine step_cases ?idle ?accept ?answered ?init ?release ?cycle
  case idle | accept | answered => intros; exact absurd rfl ‹_ ≠ _›
  case init => exact fun s g p _ _ hne => absurd (dataKept_initStep g s).acc hne
  case release => exact fun s p _ hne => absurd (sessionKeeps_releaseStep s).acc hne
  case cycle =>
    intro s i q t hs hi _ h hne
    refine ⟨i, q, hs, hi, ?_⟩
    cases h with
    | refused => exact absurd rfl hne
    | @cycle p u _ start next =>
      obtain hsame | ⟨hd, hcont, hacc⟩ | ⟨k, b, rfl, hd, hacc⟩ := cycleStep_acc (cycleGain (.instr i) s) p u
      · exact absurd (next.acc.trans (hsame.trans start.acc)) hne
      · exact .inl ⟨start.nextData.symm.trans hd, next.acc.trans hacc, next.seq_of_cont hcont⟩
      · obtain ⟨rfl, hp⟩ := start.eq_of_ne_rw nofun
        exact .inr ⟨k, b, eq_of_seq_point hs hp, hd, (next.acc.trans hacc).trans (shiftIn_eq_ofNat _ _)⟩

/-- Settles O55: a step of the cycle completes it or leaves the chip mode (`cycleStep_chipMode`), and the command then adds
only the fault. -/
theorem chipModeWriters : Obligations.ChipModeWriters := by
  unfold Obligations.ChipModeWriters
  refine step_cases ?idle ?accept ?answered ?init ?release ?cycle
  case idle | accept | answered => intros; exact absurd rfl ‹_ ≠ _›
  case init =>
    intro s g p hs _ hne
    refine .inr ⟨?_, .init g, p, hs, .inl ⟨g, rfl⟩⟩
    obtain ⟨-, hdone⟩ | keeps := initStep_done_or_keeps g s
    · exact hdone ▸ rfl
    · obtain ⟨-, hc⟩ | ⟨-, hc⟩ := keeps.session
      · exact absurd hc hne
      · exact hc
  case release =>
    intro s p hs hne
    refine .inr ⟨?_, .release, p, hs, .inr (.inl rfl)⟩
    obtain ⟨-, hc⟩ | ⟨-, hc⟩ := (sessionKeeps_releaseStep s).session
    · exact absurd hc hne
    · exact hc
  case cycle =>
    intro s i q t hs hi hlegal h hne
    cases h with
    | refused => exact absurd rfl hne
    | @cycle p u _ start next =>
      obtain ⟨-, rfl⟩ | ⟨-, hchip⟩ := next.faulted_or_keeps
      · exact .inr ⟨rfl, i, q, hs, .inr (.inr ⟨rfl, rfl⟩)⟩
      obtain ⟨j, rfl, hj, hc, hdone⟩ | ⟨-, hsame⟩ := cycleStep_chipMode (cycleGain (.instr i) s) p u
      · obtain ⟨rfl, hp⟩ := start.eq_of_ne_rw nofun
        obtain rfl := eq_of_seq_point hs hp
        refine .inl ⟨i, _, j, ⟨hs, ?_⟩, hj, hc, ?_⟩
        · obtain rfl | ⟨g, rfl⟩ := hi
          · exact .inl ⟨rfl, rfl⟩
          · exact .inr ⟨rfl, of_decide_eq_true hlegal⟩
        · rw [hdone] at hchip
          exact hchip
      · exact absurd (hchip.trans (hsame.trans start.chipMode)) hne

/-- Settles O57: by where the sequencer stands, a step is a function that reads no shadow field (`step_blind`). -/
theorem shadowNotRead : Obligations.ShadowNotRead := by
  intro s t h
  obtain ⟨f, hf, hblind⟩ := step_blind s.seq
  obtain rfl := Host.Outcome.next.inj ((hf s rfl).symm.trans h)
  exact ⟨f (forgetShadow s), hf _ rfl, hblind s⟩

/-- Settles O58: a step records at most one event (`step_atMostOne`) and adds at most one response. -/
theorem paramsAndHistory : Obligations.ParamsAndHistory := by
  intro s t h
  have trace : s.trace <+: t.trace := by
    rcases step_atMostOne h with hq | ⟨htr, -, -⟩ | ⟨e, -, htr, -, -⟩
    · rw [hq.trace]
    · exact htr ▸ List.prefix_append _ _
    · exact htr ▸ List.prefix_append _ _
  obtain ⟨params, responses⟩ := step_params_responses h
  exact ⟨params, trace, responses⟩

/-- Settles O4, row by row; every gain code but 0 is that of a mode. -/
theorem gainTable : Obligations.GainTable := by
  refine ⟨?a128, ?b32, ?a64, ?codes⟩
  case a128 | b32 | a64 => decide
  case codes => decide

end Sys2Proof.StateRules

/-! PROOFS of the family 30_encoding: the opcode map and the round trip of decoder and encoder, acceptance and responses,
and that a word presented during a command waits. -/

namespace Sys2Proof

/-! ### The decoder and the encoder, field by field (30_encoding R70 to R74) -/

/-- A word is its three fields. -/
theorem eq_packWord {w : Word} (h : w.rsv = 0#4) : w = packWord w.gain w.op := by
  revert w; decide

theorem withGain_eq_instr {g : GainCode} {f : GainCode → Instr} {i : Instr} :
    withGain g f = .instr i ↔ g ≠ 0#2 ∧ f g = i := by
  unfold withGain
  split <;> simp [*]

theorem withoutGain_eq_instr {g : GainCode} {j i : Instr} :
    withoutGain g j = .instr i ↔ g = 0#2 ∧ j = i := by
  unfold withoutGain
  split <;> simp [*]

/-- The four operations of the OP field. -/
theorem op_cases (op : BitVec 2) : op = 0#2 ∨ op = 1#2 ∨ op = 2#2 ∨ op = 3#2 := by
  revert op; decide

/-- The opcode map reads back from the word's fields the instruction they encode. -/
theorem encode_of_decodeOp {op : BitVec 2} {g : GainCode} {i : Instr} (h : decodeOp op g = .instr i) :
    encode i = packWord g op := by
  obtain rfl | rfl | rfl | rfl := op_cases op
  · obtain ⟨-, rfl⟩ := withGain_eq_instr.mp h
    rfl
  · obtain ⟨rfl, rfl⟩ := withoutGain_eq_instr.mp h
    rfl
  · obtain ⟨-, rfl⟩ := withGain_eq_instr.mp h
    rfl
  · obtain ⟨rfl, rfl⟩ := withoutGain_eq_instr.mp h
    rfl

/-- Reserved bits aside, a word decodes by its OP and GAIN fields. -/
theorem decode_of_rsv {w : Word} (h : w.rsv = 0#4) : decode w = decodeOp w.op w.gain :=
  if_pos h

theorem decode_packWord (g : GainCode) (op : BitVec 2) : decode (packWord g op) = decodeOp op g := by
  rw [decode_of_rsv (packWord_rsv g op), packWord_op, packWord_gain]

/-- An instruction's encoding decodes to it. -/
theorem decode_encode {i : Instr} (h : i.WellFormed) : decode (encode i) = .instr i := by
  cases i with
  | init g =>
    have hg : g ≠ 0#2 := of_decide_eq_true h
    exact (decode_packWord g 0#2).trans (withGain_eq_instr.mpr ⟨hg, rfl⟩)
  | read => exact decode_packWord 0#2 1#2
  | setGain g =>
    have hg : g ≠ 0#2 := of_decide_eq_true h
    exact (decode_packWord g 2#2).trans (withGain_eq_instr.mpr ⟨hg, rfl⟩)
  | release => exact decode_packWord 0#2 3#2

/-- No other word decodes to it. -/
theorem encode_of_decode {w : Word} {i : Instr} (h : decode w = .instr i) : encode i = w := by
  by_cases hr : w.rsv = 0#4
  · rw [decode_of_rsv hr] at h
    rw [encode_of_decodeOp h, ← eq_packWord hr]
  · simp [decode, hr] at h

theorem wellFormed_of_decode {w : Word} {i : Instr} (h : decode w = .instr i) : i.WellFormed := by
  have legal := decode_legal w
  rwa [h] at legal

/-- A mode's gain code names a mode (10_state R24). -/
theorem GainMode.code_wellFormed (m : GainMode) : GainCode.WellFormed m.code := by
  cases m <;> decide

end Sys2Proof

namespace Sys2Proof.EncodingRules

open Sys2Proof.Machine Sys2Proof.Safety

/-- Settles O2: a word decodes only to the instruction it encodes (`encode_of_decode`), and each encoding decodes back
(`decode_encode`). -/
theorem decodeEncode : Obligations.DecodeEncode := by
  refine fun w i => ⟨fun h => ⟨wellFormed_of_decode h, encode_of_decode h⟩, ?_⟩
  rintro ⟨hi, rfl⟩
  exact decode_encode hi

/-- Settles O1: the eight command words are encodings; the RESERVED classes are read off all 256 words. -/
theorem opcodeMap : Obligations.OpcodeMap :=
  ⟨decode_encode (i := .init 1#2) rfl, decode_encode (i := .init 2#2) rfl, decode_encode (i := .init 3#2) rfl,
    decode_encode (i := .read) rfl,
    decode_encode (i := .setGain 1#2) rfl, decode_encode (i := .setGain 2#2) rfl, decode_encode (i := .setGain 3#2) rfl,
    decode_encode (i := .release) rfl, by decide⟩

/-- Settles O3: each line assembles to the encoding of a well-formed instruction (`decode_encode`). -/
theorem assemblyWords : Obligations.AssemblyWords :=
  have mode (m : GainMode) := decide_eq_true m.code_wellFormed
  ⟨fun m => ⟨decode_encode (i := .init m.code) (mode m), decode_encode (i := .setGain m.code) (mode m)⟩,
    decode_encode (i := .read) rfl, decode_encode (i := .release) rfl, fun _ => rfl, rfl, rfl, rfl⟩

end Sys2Proof.EncodingRules

namespace Sys2Proof.Machine

open Sys2Proof.Safety

/-! ### No command reads or writes the waiting words (30_encoding R80, 60_exceptions R209)

`PendingFree f` says that `f` does the same whatever words wait, and leaves those that do: it commutes with putting any
words in their place. -/

/-- The state with the words `ws` waiting at the port. -/
def State.withPending (ws : List Word) (s : State) : State := { s with pending := ws }

/-- The end of a step of the read cycle, and its state with the words `ws` waiting. -/
def cycleWithPending (ws : List Word) (r : CycleEnd × State) : CycleEnd × State := (r.1, r.2.withPending ws)

@[simp] theorem State.withPending_pending (ws : List Word) (s : State) : (s.withPending ws).pending = ws := rfl
@[simp] theorem State.withPending_seq (ws : List Word) (s : State) : (s.withPending ws).seq = s.seq := rfl
@[simp] theorem State.withPending_life (ws : List Word) (s : State) : (s.withPending ws).life = s.life := rfl
@[simp] theorem State.withPending_gain (ws : List Word) (s : State) : (s.withPending ws).gain = s.gain := rfl
@[simp] theorem heldLine_withPending (ws : List Word) (s : State) : (s.withPending ws).heldLine = s.heldLine := rfl
@[simp] theorem retries_withPending (ws : List Word) (s : State) : retries (s.withPending ws) = retries s := rfl

theorem State.withPending_self (s : State) : s.withPending s.pending = s := rfl

/-- Presenting a word puts it among the waiting words and changes nothing else. -/
theorem State.present_eq_withPending (k : Nat) (w : Word) (s : State) :
    s.present k w = s.withPending (s.pending.take k ++ w :: s.pending.drop k) := rfl

/-- `f` commutes with putting any words in the place of those that wait. -/
abbrev PendingFree (f : State → State) : Prop :=
  ∀ ws, Function.Commute f (State.withPending ws)

/-- The same of a step of the read cycle. -/
abbrev CyclePendingFree (f : State → CycleEnd × State) : Prop :=
  ∀ ws, Function.Semiconj f (State.withPending ws) (cycleWithPending ws)

/-! #### The line primitives -/

@[simp] theorem lineConfigure_withPending (l : Line) (d : Dir) (ws : List Word) (s : State) :
    lineConfigure l d (s.withPending ws) = ((lineConfigure l d s).1, (lineConfigure l d s).2.withPending ws) := rfl

@[simp] theorem lineRead_withPending (ws : List Word) (s : State) :
    lineRead (s.withPending ws) = ((lineRead s).1, (lineRead s).2.withPending ws) := rfl

@[simp] theorem lineWrite_withPending (v : Bool) (ws : List Word) (s : State) :
    lineWrite v (s.withPending ws) = ((lineWrite v s).1, (lineWrite v s).2.withPending ws) := rfl

theorem pendingFree_afterRelease (l : Line) : PendingFree (afterRelease l) := fun _ _ => rfl

/-! #### The read cycle -/

theorem pendingFree_busyPoll : CyclePendingFree busyPoll := by
  intro ws s
  have limit : pollLimitReached (countPoll (s.withPending ws)) = pollLimitReached (countPoll s) := rfl
  simp only [busyPoll, limit]
  split <;> rfl

theorem pendingFree_readyPoll : CyclePendingFree readyPoll := by
  intro ws s
  simp only [readyPoll, lineRead_withPending]
  obtain ⟨(_ | _) | _, u⟩ := lineRead s
  case bit.true => exact pendingFree_busyPoll ws u
  all_goals rfl

theorem pendingFree_pulseRise (next : CyclePoint) : CyclePendingFree (pulseRise next) := by
  intro ws s
  simp only [pulseRise, lineWrite_withPending]
  obtain ⟨_ | _, u⟩ := lineWrite true s <;> rfl

theorem pendingFree_sample (next : CyclePoint) : CyclePendingFree (sample next) := by
  intro ws s
  simp only [sample, lineRead_withPending]
  obtain ⟨_ | _, u⟩ := lineRead s <;> rfl

theorem pendingFree_pulseFall {after : State → CycleEnd × State} (h : CyclePendingFree after) :
    CyclePendingFree (pulseFall after) := by
  intro ws s
  simp only [pulseFall, lineWrite_withPending]
  obtain ⟨_ | _, u⟩ := lineWrite false s
  case ok => exact h ws { u with n := u.n + 1 }
  case err => rfl

theorem pendingFree_afterDataPulse (i : Nat) : CyclePendingFree (afterDataPulse i) := by
  intro ws s
  simp only [afterDataPulse]
  split <;> rfl

theorem pendingFree_afterModePulse (g : GainCode) (j : Nat) : CyclePendingFree (afterModePulse g j) := by
  intro ws s
  simp only [afterModePulse]
  split <;> rfl

theorem pendingFree_cycleStep (g : GainCode) (p : CyclePoint) : CyclePendingFree (cycleStep g p) := by
  cases p with
  | rw => exact pendingFree_readyPoll
  | dh i => exact pendingFree_pulseRise (.ds i)
  | ds i => exact pendingFree_sample (.dl i)
  | dl i => exact pendingFree_pulseFall (pendingFree_afterDataPulse i)
  | mh j => exact pendingFree_pulseRise (.ml j)
  | ml j => exact pendingFree_pulseFall (pendingFree_afterModePulse g j)

/-! #### READ and SET_GAIN -/

theorem readAfter_withPending (ws : List Word) (r : CycleEnd × State) :
    readAfter (cycleWithPending ws r) = (readAfter r).withPending ws := by
  obtain ⟨p | _ | _ | _, s⟩ := r
  case done =>
    simp only [cycleWithPending, readAfter, retries_withPending, apply_ite (State.withPending ws)]
    rfl
  all_goals rfl

theorem setGainAfter_withPending (g : GainCode) (ws : List Word) (r : CycleEnd × State) :
    setGainAfter g (cycleWithPending ws r) = (setGainAfter g r).withPending ws := by
  obtain ⟨p | _ | _ | _, s⟩ := r <;> rfl

theorem pendingFree_whenReady {run : State → State} (h : PendingFree run) : PendingFree (whenReady run) := by
  intro ws s
  simp only [whenReady, State.withPending_life]
  cases s.life with
  | ready => exact h ws s
  | _ => rfl

/-- READ runs its cycle with the stored gain, whatever words wait. -/
theorem pendingFree_readCycle (p : CyclePoint) : PendingFree fun s => readAfter (cycleStep s.gain p s) := by
  intro ws s
  simp only [State.withPending_gain, pendingFree_cycleStep s.gain p ws s, readAfter_withPending]

theorem pendingFree_setGainCycle (g : GainCode) (p : CyclePoint) :
    PendingFree fun s => setGainAfter g (cycleStep g p s) := by
  intro ws s
  simp only [pendingFree_cycleStep g p ws s, setGainAfter_withPending]

theorem pendingFree_readStep : PendingFree readStep := by
  have begins : PendingFree readBegin :=
    pendingFree_whenReady fun ws s => pendingFree_readCycle .rw ws (cycleStart s)
  intro ws s
  simp only [readStep, State.withPending_seq]
  cases s.seq.point with
  | cyc p => exact pendingFree_readCycle p ws s
  | _ => exact begins ws s

theorem pendingFree_setGainStep (g : GainCode) : PendingFree (setGainStep g) := by
  have begins : PendingFree (setGainBegin g) :=
    pendingFree_whenReady fun ws s => pendingFree_setGainCycle g .rw ws (cycleStart { s with gain := g })
  intro ws s
  simp only [setGainStep, State.withPending_seq]
  cases s.seq.point with
  | cyc p => exact pendingFree_setGainCycle g p ws s
  | _ => exact begins ws s

/-! #### INIT and RELEASE -/

theorem pendingFree_releaseNext : PendingFree releaseNext := by
  intro ws s
  simp only [releaseNext, heldLine_withPending]
  cases s.heldLine <;> rfl

theorem pendingFree_initTorn (i : Instr) : PendingFree (initTorn i) := by
  intro ws s
  simp only [initTorn, heldLine_withPending]
  cases s.heldLine <;> rfl

theorem pendingFree_initFail (i : Instr) : PendingFree (initFail i) := by
  intro ws s
  simp only [initFail, heldLine_withPending]
  cases s.heldLine <;> rfl

theorem pendingFree_releaseTorn : PendingFree releaseTorn := by
  intro ws s
  simp only [releaseTorn, heldLine_withPending]
  cases s.heldLine <;> rfl

theorem pendingFree_endTeardown : PendingFree endTeardown := by
  intro ws s
  simp only [endTeardown, State.withPending_life, apply_ite (State.withPending ws)]
  rfl

theorem pendingFree_acquireData (i : Instr) : PendingFree (acquireData i) := by
  intro ws s
  simp only [acquireData, lineConfigure_withPending]
  obtain ⟨_ | _, u⟩ := lineConfigure .data .input s
  case ok => rfl
  case err => exact pendingFree_initFail i ws u

theorem pendingFree_acquireClock (i : Instr) : PendingFree (acquireClock i) := by
  intro ws s
  simp only [acquireClock, lineConfigure_withPending]
  obtain ⟨_ | _, u⟩ := lineConfigure .clock .output s
  case ok => rfl
  case err => exact pendingFree_initFail i ws u

theorem pendingFree_driveClockLow (g : GainCode) : PendingFree (driveClockLow g) := by
  intro ws s
  simp only [driveClockLow, lineWrite_withPending]
  obtain ⟨_ | _, u⟩ := lineWrite false s
  case ok => rfl
  case err => exact pendingFree_initFail _ ws u

theorem pendingFree_initBegin (i : Instr) : PendingFree (initBegin i) := by
  intro ws s
  rw [initBegin, initBegin, apply_ite (State.withPending ws)]
  exact if_congr .rfl ((pendingFree_initTorn i ws).comp_left (pendingFree_releaseNext ws) s)
    ((pendingFree_acquireData i ws).comp_left (pendingFree_endTeardown ws) s)

theorem pendingFree_initStep (g : GainCode) : PendingFree (initStep g) := by
  intro ws s
  simp only [initStep, State.withPending_seq]
  cases s.seq.point with
  | start | cyc => exact pendingFree_initBegin _ ws s
  | tear l => exact (pendingFree_initTorn _ ws).comp_left (pendingFree_afterRelease l ws) s
  | cfgData => exact (pendingFree_acquireData _ ws).comp_left (pendingFree_endTeardown ws) s
  | cfgClock => exact pendingFree_acquireClock _ ws s
  | driveLow => exact pendingFree_driveClockLow g ws s
  | failTear l => exact (pendingFree_initFail _ ws).comp_left (pendingFree_afterRelease l ws) s

theorem pendingFree_releaseStep : PendingFree releaseStep := by
  intro ws s
  simp only [releaseStep, State.withPending_seq]
  cases s.seq.point with
  | tear l => exact (pendingFree_releaseTorn ws).comp_left (pendingFree_afterRelease l ws) s
  | _ => exact (pendingFree_releaseTorn ws).comp_left (pendingFree_releaseNext ws) s

/-! #### The machine -/

theorem pendingFree_answerReserved : PendingFree answerReserved := fun _ _ => rfl

/-- The meaning of an instruction is a function to the next state, which reads and writes no waiting word. -/
theorem exec_pendingFree (i : Instr) : ∃ f, (∀ s, exec i s = .next (f s)) ∧ PendingFree f := by
  cases i with
  | init g =>
    by_cases hg : g = 0#2
    · exact ⟨answerReserved, fun s => by rw [exec, execInit, if_pos hg], pendingFree_answerReserved⟩
    · exact ⟨initStep g, fun s => exec_init s hg, pendingFree_initStep g⟩
  | read => exact ⟨readStep, exec_read, pendingFree_readStep⟩
  | setGain g =>
    by_cases hg : g = 0#2
    · exact ⟨answerReserved, fun s => by rw [exec, execSetGain, if_pos hg], pendingFree_answerReserved⟩
    · exact ⟨setGainStep g, fun s => exec_setGain s hg, pendingFree_setGainStep g⟩
  | release => exact ⟨releaseStep, exec_release, pendingFree_releaseStep⟩

/-- A step of a command in progress is the same whatever words wait, and leaves those that do. -/
theorem step_withPending {s t : State} {c : Cmd} {p : Point} (hs : s.seq = .busy c p) (h : step s = .next t)
    (ws : List Word) : step (s.withPending ws) = .next (t.withPending ws) := by
  have hs' : (s.withPending ws).seq = .busy c p := hs
  cases c with
  | instr i =>
    obtain ⟨f, hf, hfree⟩ := exec_pendingFree i
    rw [step_busy hs, hf] at h
    obtain rfl := Host.Outcome.next.inj h
    rw [step_busy hs', hf, hfree ws s]
  | reserved r =>
    simp only [step, hs] at h
    obtain rfl := Host.Outcome.next.inj h
    simp only [step, hs', pendingFree_answerReserved ws s]

/-- A step of a command in progress leaves the waiting words. -/
theorem step_pending {s t : State} {c : Cmd} {p : Point} (hs : s.seq = .busy c p) (h : step s = .next t) :
    t.pending = s.pending := by
  have same := step_withPending hs h s.pending
  rw [State.withPending_self, h] at same
  rw [Host.Outcome.next.inj same, State.withPending_pending]

end Sys2Proof.Machine

namespace Sys2Proof.EncodingRules

open Sys2Proof.Machine Sys2Proof.Safety

/-- Settles O13: presenting a word only puts other words in the place of those that wait (`step_withPending`). -/
theorem hostsCannotInterfere : Obligations.HostsCannotInterfere := by
  intro s t c p k w hs h
  have pending : t.pending = s.pending := step_pending hs h
  refine ⟨pending, ?_⟩
  rw [State.present_eq_withPending, State.present_eq_withPending, pending]
  exact step_withPending hs h _

end Sys2Proof.EncodingRules

namespace Sys2Proof.Machine

open Sys2Proof.Safety

/-! ### What a step does to the response port (30_encoding R78, 60_exceptions R207) -/

/-- What the response port shows and what has been responded, with the register and the width a response is made of. -/
structure Port where
  params : Params
  result : PortVal
  responses : List Response
  rspValid : Bool
  rspStatus : BitVec 3
  rspValue : PortVal

/-- The port of a state. -/
def State.port (s : State) : Port :=
  ⟨s.params, s.result, s.responses, s.rspValid, s.rspStatus, s.rspValue⟩

/-- Everything a step of the command `c` can do to the port: the command goes on and the port is left, or it responds, with
value 0 or with the sample READ has stored. -/
inductive PortAfter (c : Cmd) (s : State) : State → Prop where
  | goesOn {t : State} (q : Point) (seq : t.seq = .busy c q) (port : t.port = s.port) : PortAfter c s t
  | answers {u : State} (st : Status) (port : u.port = s.port) : PortAfter c s (u.answer st)
  | reads {u : State} (port : u.port = s.port) : PortAfter c s (readDone u)

/-! #### INIT and RELEASE -/

theorem port_endTeardown (s : State) : (endTeardown s).port = s.port := by
  unfold endTeardown
  split <;> rfl

theorem portAfter_initFail {i : Instr} {s u : State} (h : u.port = s.port) : PortAfter (.instr i) s (initFail i u) :=
  initFail_rec i u (fun l _ => .goesOn (.failTear l) rfl h) (fun _ _ => .answers (u := closeTeardown u) _ h)

theorem portAfter_initTorn {i : Instr} {s u : State} (h : u.port = s.port) : PortAfter (.instr i) s (initTorn i u) :=
  initTorn_rec i u (fun l _ => .goesOn (.tear l) rfl h) (fun _ _ => .goesOn .cfgData rfl h)

theorem portAfter_releaseTorn {s u : State} (h : u.port = s.port) :
    PortAfter (.instr .release) s (releaseTorn u) :=
  releaseTorn_rec u (fun l _ => .goesOn (.tear l) rfl h) (fun _ _ => .answers (u := closeTeardown u) _ h)

theorem portAfter_initStep (g : GainCode) (s : State) : PortAfter (.instr (.init g)) s (initStep g s) := by
  have torn (u : State) (hu : u = endTeardown s) : u.port = s.port := hu ▸ port_endTeardown s
  refine initStep_rec g s ?tearFirst ?tear ?dataOk ?dataErr ?clockOk ?clockErr ?lowOk ?lowErr ?failTear
  case tearFirst | tear => intros; exact portAfter_initTorn rfl
  case dataOk => exact fun u hu _ _ => .goesOn .cfgClock rfl (torn u hu)
  case dataErr => exact fun u hu _ _ => portAfter_initFail (torn u hu)
  case clockOk => exact fun _ _ => .goesOn .driveLow rfl rfl
  case clockErr | lowErr | failTear => intros; exact portAfter_initFail rfl
  case lowOk =>
    exact fun _ _ =>
      .answers (u := { afterWrite false .ok s with gain := g, chipMode := .unknown, life := .ready }) _ rfl

theorem portAfter_releaseStep (s : State) : PortAfter (.instr .release) s (releaseStep s) :=
  have torn (l : Line) : PortAfter (.instr .release) s (releaseTorn (afterRelease l s)) :=
    portAfter_releaseTorn (u := afterRelease l s) rfl
  releaseStep_rec s (fun l _ => torn l) (fun _ _ => torn .clock) (fun _ _ _ => torn .data)
    (fun _ _ _ => .answers (u := closeTeardown s) _ rfl)

/-! #### READ and SET_GAIN -/

theorem port_cycleStep (g : GainCode) (p : CyclePoint) (s : State) : (cycleStep g p s).2.port = s.port := by
  obtain ⟨params, -, -, result, -, -, -, responses, valid, status, value, -⟩ := cycleStep_frame g p s
  rw [State.port, params, result, responses, valid, status, value, State.port]

theorem CycleFrom.port {i : Instr} {s u : State} {p : CyclePoint} (h : CycleFrom i s p u) : u.port = s.port := by
  cases h <;> rfl

theorem CycleThen.portAfter {i : Instr} {s t : State} {r : CycleEnd × State} (h : CycleThen i r t)
    (hr : r.2.port = s.port) : PortAfter (.instr i) s t := by
  cases h with
  | cont p => exact .goesOn (.cyc p) rfl hr
  | retry => exact .goesOn (.cyc .rw) rfl hr
  | faulted => exact .answers (u := { r.2 with life := .faulted, chipMode := .unknown }) _ hr
  | read => exact .reads hr
  | timeout | commit => exact .answers _ hr

theorem CycleCommandStep.portAfter {i : Instr} {s t : State} (h : CycleCommandStep i s t) :
    PortAfter (.instr i) s t := by
  cases h with
  | refused st => exact .answers st rfl
  | cycle start next => exact next.portAfter ((port_cycleStep _ _ _).trans start.port)

/-! #### The response invariant (10_state R27, R37; 30_encoding R78) -/

/-- An acceptance, or a step of a command that goes on, leaves all the port shows but `rsp_valid`. -/
theorem responseInv_of_busy {s t : State} (inv : ResponseInv s) (ht : t.seq ≠ .idle)
    (port : t.port = { s.port with rspValid := false }) : ResponseInv t := by
  simp only [State.port, Port.mk.injEq] at port
  obtain ⟨params, result, responses, valid, status, value⟩ := port
  have mirrors : portMirrors t := by
    have before := inv.port
    unfold portMirrors at before ⊢
    rw [responses, status, value, params]
    split
    next last => rw [last] at before; exact ⟨valid, before.2⟩
    next r last => rw [last] at before; exact ⟨fun idle => absurd idle ht, before.2⟩
  exact ⟨by rw [result, params, inv.width], by rw [responses, params]; exact inv.history, fun _ => valid, mirrors⟩

/-- A response of width W that has value 0 unless it is OK is added to the history and stands on the port. -/
theorem responseInv_respond {s : State} {st : Status} {v : PortVal} (width : s.result.width = s.params.w)
    (history : ∀ r ∈ s.responses, responseLegal s.params.w r) (legal : responseLegal s.params.w ⟨st, v⟩) :
    ResponseInv (s.respond st v) where
  width := width
  history := by
    intro r hr
    obtain hr | hr := List.mem_append.mp hr
    · exact history r hr
    · exact List.mem_singleton.mp hr ▸ legal
  busy := fun h => absurd rfl h
  port := by simp [portMirrors]

/-- A command keeps the invariant, whether it goes on or responds. -/
theorem PortAfter.responseInv {c : Cmd} {s t : State} {p : Point} (h : PortAfter c s t) (hs : s.seq = .busy c p)
    (inv : ResponseInv s) : ResponseInv t := by
  cases h with
  | goesOn q seq port =>
    have valid : s.rspValid = false := inv.busy (by simp [hs])
    refine responseInv_of_busy inv (by simp [seq]) (port.trans ?_)
    rw [State.port, valid]
  | @answers u st port =>
    simp only [State.port, Port.mk.injEq] at port
    obtain ⟨params, result, responses, -⟩ := port
    refine responseInv_respond ?_ ?_ ⟨rfl, fun _ => rfl⟩
    · rw [result, params, inv.width]
    · rw [responses, params]; exact inv.history
  | @reads u port =>
    simp only [State.port, Port.mk.injEq] at port
    obtain ⟨params, -, responses, -⟩ := port
    refine responseInv_respond rfl ?_ ⟨rfl, fun ne => absurd rfl ne⟩
    simpa only [responses, params] using inv.history

theorem step_responseInv {s t : State} (h : step s = .next t) : ResponseInv s → ResponseInv t := by
  refine step_cases (motive := fun s t => ResponseInv s → ResponseInv t)
    ?idle ?accept ?answered ?init ?release ?cycle s t h
  case idle => exact fun _ _ _ inv => inv
  case accept => exact fun s w ws _ _ inv => responseInv_of_busy inv nofun rfl
  case answered => exact fun s c p hs _ => PortAfter.responseInv (.answers .invalidArgument rfl) hs
  case init => exact fun s g p hs _ => (portAfter_initStep g s).responseInv hs
  case release => exact fun s p hs => (portAfter_releaseStep s).responseInv hs
  case cycle => exact fun s i p t hs _ _ h => h.portAfter.responseInv hs

/-! ### Acceptance, and the steps that answer at once (30_encoding R76, R80) -/

theorem step_accept {s : State} {w : Word} {ws : List Word} (hs : s.seq = .idle) (hp : s.pending = w :: ws) :
    step s = .next { s with pending := ws, rspValid := false, seq := .busy (decode w) .start } := by
  simp only [step, hs, State.accept, hp]

theorem step_reserved {s : State} {r : Reserved} {p : Point} (hs : s.seq = .busy (.reserved r) p) :
    step s = .next (answerReserved s) := by
  simp only [step, hs]

/-- The answer to a RESERVED word is one response and nothing else. -/
theorem answerReserved_eq (s : State) : answerReserved s = answered .invalidArgument (zeroOf s) s := rfl

/-- A command port that presents nothing has no word waiting. -/
theorem cmdValid_eq_false {s : State} : s.cmdValid = false ↔ s.pending = [] := by
  simp [State.cmdValid]

end Sys2Proof.Machine

namespace Sys2Proof.EncodingRules

open Sys2Proof.Machine Sys2Proof.Safety

/-- Settles O45, command by command: a command that goes on leaves the port, and one that responds does so with value 0 or
with the sample stored (`PortAfter`). -/
theorem responseInvKept : Obligations.ResponseInvKept :=
  fun _ _ inv h => step_responseInv h inv

/-- Settles O7: the two cases of `step`. -/
theorem stepRunsInstruction : Obligations.StepRunsInstruction :=
  fun _ => ⟨fun _ _ hs hp => step_accept hs hp, fun _ _ hs => step_busy hs⟩

/-- Settles O8: with no word waiting, acceptance does nothing. -/
theorem idleWaits : Obligations.IdleWaits := by
  refine fun s => ⟨decide_eq_true_iff, fun hs hv => ?_⟩
  have empty : s.pending = [] := cmdValid_eq_false.mp hv
  simp only [step, hs, State.accept, empty]

/-- Settles O9: the acceptance (`step_accept`), then the answer (`step_reserved`). -/
theorem reservedAnswered : Obligations.ReservedAnswered := by
  intro s w ws why hs hp hw
  rw [run_succ (step_accept hs hp), hw, run_succ (step_reserved rfl), run_zero, answerReserved_eq]
  rfl

/-- Settles O10: an acceptance, an instruction (`exec_next`) and a RESERVED word each have a next state. -/
theorem stepAnswersNext : Obligations.StepAnswersNext := by
  intro s
  rcases hs : s.seq with _ | ⟨i | r, p⟩
  · exact ⟨s.accept, by simp only [step, hs]⟩
  · rw [step_busy hs]
    exact exec_next i s
  · exact ⟨answerReserved s, step_reserved hs⟩

/-- Settles O19: both meanings answer operand 0 as a RESERVED word. -/
theorem zeroGainRejected : Obligations.ZeroGainRejected := by
  intro s
  rw [← answerReserved_eq]
  refine ⟨?init, ?setGain⟩
  case init => rw [exec, execInit, if_pos rfl]
  case setGain => rw [exec, execSetGain, if_pos rfl]

end Sys2Proof.EncodingRules

/-! PROOFS of the family 40_sequencer: the rows of the read cycle's table, whole cycles of READ and SET_GAIN, the data
path, and what each line primitive does to the lines. -/

namespace Sys2Proof.Machine

open Sys2Proof.Safety

/-! ### A step at a point of the read cycle, for READ and SET_GAIN at once (40_sequencer R120) -/

/-- What the command `i` does after a step of its read cycle (42_read R151, R161). -/
def cycleAfter (i : Instr) (r : CycleEnd × State) : State :=
  match i with
  | .setGain g => setGainAfter g r
  | _ => readAfter r

theorem exec_atCycle {i : Instr} {g : GainCode} {p : CyclePoint} {s : State} (h : AtCycle i g p s) :
    exec i s = .next (cycleAfter i (cycleStep g p s)) := by
  obtain ⟨hs, ⟨rfl, rfl⟩ | ⟨rfl, hg⟩⟩ := h
  · rw [exec_read, readStep_cyc hs]; rfl
  · rw [exec_setGain s hg, setGainStep_cyc hs]; rfl

theorem exec_of_cont {i : Instr} {g : GainCode} {p q : CyclePoint} {s u : State} (h : AtCycle i g p s)
    (hr : cycleStep g p s = (.cont q, u)) : exec i s = .next (u.goto (.instr i) (.cyc q)) := by
  rw [exec_atCycle h, hr]
  obtain ⟨-, ⟨rfl, -⟩ | ⟨rfl, -⟩⟩ := h <;> rfl

theorem exec_of_timeout {i : Instr} {g : GainCode} {p : CyclePoint} {s u : State} (h : AtCycle i g p s)
    (hr : cycleStep g p s = (.timeout, u)) : exec i s = .next (u.answer .timeout) := by
  rw [exec_atCycle h, hr]
  obtain ⟨-, ⟨rfl, -⟩ | ⟨rfl, -⟩⟩ := h <;> rfl

/-- A command that goes on where it stands. -/
theorem State.goto_self {c : Cmd} {p : Point} {s : State} (h : s.seq = .busy c p) : s.goto c p = s := by
  rw [State.goto, ← h]

/-! #### The rows of the table (40_sequencer R111, R113, R115) -/

section Rows

variable {i : Instr} {g : GainCode} {s : State}

theorem exec_readyPoll (h : AtCycle i g .rw s) (hd : s.nextData = .bit false) :
    exec i s = .next { drewData (.bit false) s with acc := 0#24, seq := .busy (.instr i) (.cyc (.dh 0)) } := by
  rw [exec_of_cont h (readyPoll_zero hd)]; rfl

theorem exec_busyPoll (h : AtCycle i g .rw s) (hd : s.nextData = .bit true)
    (hl : ∀ l, s.params.readyPollLimit = some l → s.polls + 1 < l) :
    exec i s = .next { drewData (.bit true) s with polls := s.polls + 1 } := by
  have stays : (countPoll (afterRead (.bit true) s)).goto (.instr i) (.cyc .rw) = countPoll (afterRead (.bit true) s) :=
    State.goto_self h.1
  exact (exec_of_cont h ((readyPoll_one hd).trans (busyPoll_wait hl))).trans (congrArg _ stays)

theorem exec_lastPoll {l : Nat} (h : AtCycle i g .rw s) (hd : s.nextData = .bit true)
    (hl : s.params.readyPollLimit = some l) (hle : l ≤ s.polls + 1) :
    exec i s = .next (answered .timeout (zeroOf s) { drewData (.bit true) s with polls := s.polls + 1 }) := by
  rw [exec_of_timeout h ((readyPoll_one hd).trans (busyPoll_limit hl hle))]; rfl

theorem exec_dataRise {k : Nat} (h : AtCycle i g (.dh k) s) (hc : s.nextCap = .ok) :
    exec i s = .next
      { drewCap (.wr true .ok) s with clockLevel := .high, seq := .busy (.instr i) (.cyc (.ds k)) } := by
  rw [exec_of_cont h (pulseRise_ok _ hc)]; rfl

theorem exec_sample {k : Nat} {b : Bool} (h : AtCycle i g (.ds k) s) (hd : s.nextData = .bit b) :
    exec i s = .next
      { drewData (.bit b) s with acc := shiftIn s.acc b, seq := .busy (.instr i) (.cyc (.dl k)) } := by
  rw [exec_of_cont h (sample_bit _ hd)]; rfl

theorem exec_dataFall {k : Nat} (h : AtCycle i g (.dl k) s) (hc : s.nextCap = .ok) :
    exec i s = .next
      { drewCap (.wr false .ok) s with
        clockLevel := .low, n := s.n + 1
        seq := .busy (.instr i) (.cyc (if k < 23 then .dh (k + 1) else .mh 1)) } := by
  have next (u : State) : afterDataPulse k u = (.cont (if k < 23 then .dh (k + 1) else .mh 1), u) := by
    unfold afterDataPulse
    split <;> rfl
  rw [exec_of_cont h ((pulseFall_ok _ hc).trans (next _))]; rfl

theorem exec_modeRise {j : Nat} (h : AtCycle i g (.mh j) s) (hc : s.nextCap = .ok) :
    exec i s = .next
      { drewCap (.wr true .ok) s with clockLevel := .high, seq := .busy (.instr i) (.cyc (.ml j)) } := by
  rw [exec_of_cont h (pulseRise_ok _ hc)]; rfl

theorem exec_modeFall {j : Nat} (h : AtCycle i g (.ml j) s) (hc : s.nextCap = .ok) (hj : j < extra g) :
    exec i s = .next
      { drewCap (.wr false .ok) s with
        clockLevel := .low, n := s.n + 1, seq := .busy (.instr i) (.cyc (.mh (j + 1))) } := by
  rw [exec_of_cont h ((pulseFall_ok _ hc).trans (if_pos hj))]; rfl

/-- The last primitive of a completed cycle. -/
theorem exec_lastFall {j : Nat} (h : AtCycle i g (.ml j) s) (hc : s.nextCap = .ok) (hj : extra g ≤ j) :
    exec i s = .next (cycleAfter i (.done,
      { drewCap (.wr false .ok) s with clockLevel := .low, n := s.n + 1, chipMode := .known g })) := by
  rw [exec_atCycle h, cycleStep, pulseFall_ok _ hc, afterModePulse, if_neg (Nat.not_lt.mpr hj)]; rfl

end Rows

/-! #### The first poll (40_sequencer R110) -/

/-- `s` with the command `i` at point RW of its cycle: both counters 0, and the gain the cycle is run with stored. -/
def begun (i : Instr) (s : State) : State :=
  (cycleStart { s with gain := cycleGain (.instr i) s }).goto (.instr i) (.cyc .rw)

theorem atCycle_begun {i : Instr} (s : State) (hi : RunsCycle i) (hw : i.WellFormed) :
    AtCycle i (cycleGain (.instr i) s) .rw (begun i s) := by
  obtain rfl | ⟨g, rfl⟩ := hi
  · exact ⟨rfl, .inl ⟨rfl, rfl⟩⟩
  · exact ⟨rfl, .inr ⟨rfl, of_decide_eq_true hw⟩⟩

/-- Where the sequencer stands before a step of the cycle does not show after it, for the command then writes it. -/
theorem cycleAfter_goto (i : Instr) (c : Cmd) (q : Point) (r : CycleEnd × State) :
    cycleAfter i (r.1, r.2.goto c q) = cycleAfter i r := by
  obtain ⟨p | _ | _ | _, s⟩ := r <;> cases i <;> rfl

theorem readyPoll_goto (c : Cmd) (q : Point) (s : State) :
    readyPoll (s.goto c q) = ((readyPoll s).1, (readyPoll s).2.goto c q) := by
  have busy (u : State) : busyPoll (u.goto c q) = ((busyPoll u).1, (busyPoll u).2.goto c q) := by
    have limit : pollLimitReached (countPoll (u.goto c q)) = pollLimitReached (countPoll u) := rfl
    simp only [busyPoll, limit]
    split <;> rfl
  have read : lineRead (s.goto c q) = ((lineRead s).1, (lineRead s).2.goto c q) := rfl
  simp only [readyPoll, read]
  obtain ⟨(_ | _) | _, u⟩ := lineRead s
  case bit.true => exact busy u
  all_goals rfl

theorem whenReady_ready {run : State → State} {s : State} (h : s.life = .ready) : whenReady run s = run s := by
  rw [whenReady, h]

theorem readStep_start {s : State} (hs : s.seq = .busy (.instr .read) .start) (hl : s.life = .ready) :
    readStep s = readAfter (cycleStep s.gain .rw (cycleStart s)) := by
  have point : s.seq.point = .start := congrArg Seq.point hs
  simp only [readStep, point, readBegin, whenReady_ready hl]

theorem setGainStep_start {s : State} {g : GainCode} (hs : s.seq = .busy (.instr (.setGain g)) .start)
    (hl : s.life = .ready) : setGainStep g s = setGainAfter g (cycleStep g .rw (cycleStart { s with gain := g })) := by
  have point : s.seq.point = .start := congrArg Seq.point hs
  simp only [setGainStep, point, setGainBegin, whenReady_ready hl]

/-- In READY the first step of READ and SET_GAIN is that of point RW. -/
theorem exec_start {i : Instr} {s : State} (hi : RunsCycle i) (hw : i.WellFormed)
    (hs : s.seq = .busy (.instr i) .start) (hl : s.life = .ready) : exec i s = exec i (begun i s) := by
  rw [exec_atCycle (atCycle_begun s hi hw), cycleStep, begun, readyPoll_goto, cycleAfter_goto]
  obtain rfl | ⟨g, rfl⟩ := hi
  · rw [exec_read, readStep_start hs hl]; rfl
  · rw [exec_setGain s (of_decide_eq_true hw), setGainStep_start hs hl]; rfl

end Sys2Proof.Machine

namespace Sys2Proof.SequencerRules

open Sys2Proof.Machine Sys2Proof.Safety

/-- Settles O25: a first step is that of point RW with the cycle begun (`exec_start`). -/
theorem cycleBegins : Obligations.CycleBegins :=
  fun _ hl => ⟨fun hs => exec_start (.inl rfl) rfl hs hl,
    fun g hg hs => exec_start (.inr ⟨g, rfl⟩) (decide_eq_true hg) hs hl⟩

/-- Settles O26, by the bit read and the limit. -/
theorem readyPoll : Obligations.ReadyPoll :=
  fun _ _ _ h => ⟨exec_readyPoll h, exec_busyPoll h, fun _ => exec_lastPoll h⟩

/-- Settles O27, primitive by primitive; a shift is doubling and adding the bit (`shiftIn_eq_ofNat`). -/
theorem dataPulse : Obligations.DataPulse :=
  fun _ _ _ _ _ => ⟨exec_dataRise, fun _ h hd => shiftIn_eq_ofNat _ _ ▸ exec_sample h hd, exec_dataFall⟩

/-- Settles O28: the rise, and the fall of a pulse that is not the last. -/
theorem modePulse : Obligations.ModePulse :=
  fun _ _ _ _ => ⟨exec_modeRise, exec_modeFall⟩

/-- Settles O29: the cycle is done (`exec_lastFall`) and its sample is not one the guard discards. -/
theorem readCompletes : Obligations.ReadCompletes := by
  intro s j hs hj hc hguard
  rw [exec_lastFall ⟨hs, .inl ⟨rfl, rfl⟩⟩ hc hj]
  exact congrArg _ (readAfter_done hguard)

/-- Settles O31: the cycle is done (`exec_lastFall`), and SET_GAIN looks at no sample. -/
theorem setGainCompletes : Obligations.SetGainCompletes := by
  intro g s j hg hs hj hc
  rw [exec_lastFall ⟨hs, .inr ⟨rfl, hg⟩⟩ hc hj]
  rfl

end Sys2Proof.SequencerRules

namespace Sys2Proof.Machine

open Sys2Proof.Safety

/-! ### The data path (40_sequencer R114, R118) -/

/-- Where there is room for one more bit, a shift loses none. -/
theorem shiftIn_toNat {acc : Raw} (b : Bool) (h : acc.toNat < 2 ^ 23) :
    (shiftIn acc b).toNat = 2 * acc.toNat + b.toNat := by
  have hb := b.toNat_lt
  rw [shiftIn_eq_ofNat, BitVec.toNat_ofNat, Nat.mod_eq_of_lt (by omega)]

/-- A shift adds one bit, or the accumulator is full. -/
theorem shiftIn_toNat_lt {acc : Raw} {k : Nat} (b : Bool) (h : acc.toNat < 2 ^ k) :
    (shiftIn acc b).toNat < 2 ^ (k + 1) := by
  by_cases hk : k < 24
  · have hb := b.toNat_lt
    have room : acc.toNat < 2 ^ 23 := h.trans_le (Nat.pow_le_pow_right two_pos (by omega))
    rw [shiftIn_toNat b room, Nat.pow_succ]
    omega
  · exact (shiftIn acc b).isLt.trans_le (Nat.pow_le_pow_right two_pos (by omega))

/-- The bit shifted in is bit 0. -/
@[simp] theorem shiftIn_getElem_zero (acc : Raw) (b : Bool) : (shiftIn acc b)[0] = b := by
  simp [shiftIn]

/-- Every other bit moves up one place. -/
@[simp] theorem shiftIn_getElem_succ (acc : Raw) (b : Bool) {i : Nat} (hi : i + 1 < 24) :
    (shiftIn acc b)[i + 1] = acc[i] := by
  simp [shiftIn]

/-- The next bit shifted in after the upper `k` bits of the sample gives its upper `k + 1` bits. -/
theorem shiftIn_upper (raw : Raw) {k : Nat} (hk : k < 24) :
    shiftIn (raw >>> (24 - k)) (raw.getMsbD k) = raw >>> (24 - (k + 1)) := by
  ext i hi
  cases i with
  | zero =>
    have place : 24 - 1 - k = 24 - (k + 1) + 0 := by omega
    simp only [shiftIn_getElem_zero, BitVec.getElem_ushiftRight, BitVec.getMsbD_eq_getLsbD, hk, decide_true,
      Bool.true_and, place]
  | succ i =>
    have place : 24 - k + i = 24 - (k + 1) + (i + 1) := by omega
    simp only [shiftIn_getElem_succ, BitVec.getElem_ushiftRight, place]

/-- Once `k` bits of the sample have been shifted in, the accumulator holds its upper `k` bits. -/
theorem foldl_shiftIn_upper (raw : Raw) {k : Nat} (hk : k ≤ 24) :
    ((List.range k).map fun j => raw.getMsbD j).foldl shiftIn 0#24 = raw >>> (24 - k) := by
  induction k with
  | zero => exact (BitVec.ushiftRight_eq_zero le_rfl).symm
  | succ k ih =>
    rw [List.range_succ, List.map_append, List.foldl_append, ih (Nat.le_of_succ_le hk)]
    exact shiftIn_upper raw hk

theorem foldl_shiftIn_wireBits (raw : Raw) : (wireBits raw).foldl shiftIn 0#24 = raw := by
  rw [wireBits, foldl_shiftIn_upper raw le_rfl, Nat.sub_self, BitVec.ushiftRight_zero]

theorem signExtend_signed {w : Nat} (raw : Raw) (hw : 24 ≤ w) : (signExtend w raw).signed = raw.toInt :=
  BitVec.toInt_signExtend_of_le hw

/-- The bits of the result: the sample's, and its sign above them. -/
theorem signExtend_getLsbD {w : Nat} (raw : Raw) {k : Nat} (hk : k < w) :
    (signExtend w raw).bits.getLsbD k = if k < 24 then raw.getLsbD k else raw.getLsbD 23 := by
  rw [signExtend, BitVec.getLsbD_signExtend, decide_eq_true hk, Bool.true_and, BitVec.msb_eq_getLsbD_last]

/-- At W = 32 the sign extension of a negative sample is an OR of the upper 8 bits. -/
theorem signExtend_32 (raw : Raw) :
    raw.signExtend 32 = if raw.getLsbD 23 then 0xFF000000#32 ||| raw.setWidth 32 else raw.setWidth 32 := by
  have mask : ∀ k < 32, (0xFF000000#32).getLsbD k = decide (24 ≤ k) := by decide
  split
  next neg =>
    refine BitVec.eq_of_getLsbD_eq fun k hk => (signExtend_getLsbD raw hk).trans ?_
    rw [BitVec.getLsbD_or, mask k hk, BitVec.getLsbD_setWidth, decide_eq_true hk, Bool.true_and, neg]
    split
    next low => rw [decide_eq_false (Nat.not_le.mpr low), Bool.false_or]
    next high => rw [decide_eq_true (Nat.not_lt.mp high), Bool.true_or]
  next pos => exact BitVec.signExtend_eq_setWidth_of_msb_false (Bool.not_eq_true _ ▸ pos)

/-! ### The accumulator holds only the bits shifted in (40_sequencer R114) -/

/-- At every point a cycle may go on to, the accumulator holds no bit above those shifted in. -/
def AccBelow (r : CycleEnd × State) : Prop :=
  ∀ q, r.1 = .cont q → r.2.acc.toNat < 2 ^ bitsAt q

theorem accBelow_stop {e : CycleEnd} {s : State} (he : ∀ q, e ≠ .cont q) : AccBelow (e, s) :=
  fun q hq => absurd hq (he q)

theorem accBelow_cont {p : CyclePoint} {s : State} (h : s.acc.toNat < 2 ^ bitsAt p) : AccBelow (.cont p, s) :=
  fun _ hq => CycleEnd.cont.inj hq ▸ h

theorem cycleStep_accBelow (g : GainCode) {p : CyclePoint} {s : State} (h : s.acc.toNat < 2 ^ bitsAt p) :
    AccBelow (cycleStep g p s) := by
  refine cycleStep_rec g p s ?pollZero ?pollOne ?pollLimit ?readErr ?riseData ?sampleBit ?fallData ?fallLastData
    ?riseMode ?fallMode ?fallLast ?writeErr
  case pollZero => exact fun _ _ => accBelow_cont Nat.one_pos
  case sampleBit => rintro i b rfl -; exact accBelow_cont (shiftIn_toNat_lt b h)
  case riseData | fallData => rintro i rfl; intros; exact accBelow_cont h
  case pollOne | fallLastData | riseMode | fallMode => intros; exact accBelow_cont s.acc.isLt
  case pollLimit | readErr | fallLast | writeErr => intros; exact accBelow_stop nofun

/-- At no point of a read cycle the invariant asks nothing. -/
theorem accInv_of_offCycle {c : Cmd} {t : State} (h : OffCycle c t) : AccInv t := by
  intro c' p hs
  obtain h | ⟨q, h, hq⟩ := h <;> rw [h] at hs
  · exact nomatch hs
  · exact absurd (Seq.busy.inj hs).2 (hq p)

theorem accInv_of_cycle {c : Cmd} {p : CyclePoint} {t : State} (hs : t.seq = .busy c (.cyc p))
    (h : t.acc.toNat < 2 ^ bitsAt p) : AccInv t := by
  intro c' q hq
  obtain ⟨-, hpq⟩ := Seq.busy.inj (hs.symm.trans hq)
  exact Point.cyc.inj hpq ▸ h

theorem CycleFrom.accBelow {i : Instr} {s u : State} {p : CyclePoint} {q : Point} (h : CycleFrom i s p u)
    (hs : s.seq = .busy (.instr i) q) (inv : AccInv s) : u.acc.toNat < 2 ^ bitsAt p := by
  cases h with
  | start => exact s.acc.isLt
  | point p hp => exact inv _ p (eq_of_seq_point hs hp ▸ hs)

theorem accInv_cycleCommandStep {i : Instr} {s t : State} {q : Point} (hs : s.seq = .busy (.instr i) q)
    (inv : AccInv s) (h : CycleCommandStep i s t) : AccInv t := by
  cases h with
  | refused st => exact accInv_of_offCycle (c := .instr i) (.inl rfl)
  | @cycle p u _ start next =>
    have below := cycleStep_accBelow (cycleGain (.instr i) s) (start.accBelow hs inv)
    cases next with
    | cont q hq => exact accInv_of_cycle rfl (below q hq)
    | retry => exact accInv_of_cycle (p := .rw) rfl (BitVec.isLt _)
    | timeout | faulted | read | commit => exact accInv_of_offCycle (c := .instr i) (.inl rfl)

theorem step_accInv {s t : State} (h : step s = .next t) : AccInv s → AccInv t := by
  refine step_cases (motive := fun s t => AccInv s → AccInv t) ?idle ?accept ?answered ?init ?release ?cycle s t h
  case idle => exact fun _ _ _ inv => inv
  case accept => exact fun _ _ _ _ _ _ => accInv_of_offCycle (.inr ⟨.start, rfl, nofun⟩)
  case answered => exact fun _ c _ _ _ _ => accInv_of_offCycle (c := c) (.inl rfl)
  case init => exact fun s g _ _ _ _ => accInv_of_offCycle (offCycle_initStep g s)
  case release => exact fun s _ _ _ => accInv_of_offCycle (offCycle_releaseStep s)
  case cycle => exact fun s i p t hs _ _ h inv => accInv_cycleCommandStep hs inv h

end Sys2Proof.Machine

namespace Sys2Proof.SequencerRules

open Sys2Proof.Machine Sys2Proof.Safety

/-- Settles O43: a poll clears the accumulator, a sample adds one bit (`shiftIn_toNat_lt`), and no other step of a cycle
writes it. -/
theorem accInvKept : Obligations.AccInvKept :=
  fun _ _ inv h => step_accInv h inv

/-- Settles O39: `k` shifts leave the upper `k` bits of the sample, and a shift with room left is exact. -/
theorem shiftIn : Obligations.ShiftIn := by
  refine ⟨foldl_shiftIn_wireBits, fun acc b k hk h => ⟨shiftIn_toNat b ?_, shiftIn_toNat_lt b h⟩⟩
  exact h.trans_le (Nat.pow_le_pow_right two_pos (by omega))

/-- Settles O40: the signed value and the bits are the library's; at W = 32 the two branches are the two signs. -/
theorem signExtension : Obligations.SignExtension := by
  refine ⟨fun w raw hw => ?_, fun raw => by rw [signExtend, signExtend_32]⟩
  have signed := signExtend_signed raw hw
  refine ⟨rfl, signed, signed ▸ raw.le_toInt, ?upper, fun k hk => ?low, fun k hk hkw => ?high⟩
  case upper => exact signed ▸ Int.le_of_lt_add_one raw.toInt_lt
  case low => rw [signExtend_getLsbD raw (hk.trans_le hw), if_pos hk]
  case high => rw [signExtend_getLsbD raw hkw, if_neg (Nat.not_lt.mpr hk)]

end Sys2Proof.SequencerRules

namespace Sys2Proof.Machine

open Sys2Proof.Safety

/-! ### Runs of a read cycle whose draws are listed (40_sequencer R110 to R117) -/

section Runs

variable {i : Instr} {g : GainCode}

/-- A run from the start of READ or SET_GAIN in READY is one from point RW with the cycle begun. -/
theorem run_start {s : State} {k : Nat} (hi : RunsCycle i) (hw : i.WellFormed) (hs : s.seq = .busy (.instr i) .start)
    (hl : s.life = .ready) (hk : k ≠ 0) : run k s = run k (begun i s) := by
  obtain ⟨k, rfl⟩ := Nat.exists_eq_succ_of_ne_zero hk
  obtain ⟨t, ht⟩ := exec_next i (begun i s)
  rw [run_exec hs ((exec_start hi hw hs hl).trans ht), run_exec rfl ht]

/-- `s` once `k` ready polls have read 1, the data draws `data` being left. -/
def polled (k : Nat) (data : List DataResult) (s : State) : State :=
  { s with
    dataDraws := data
    trace := s.trace ++ List.replicate k (.rd (.bit true))
    polls := s.polls + k }

theorem run_busyPolls {k : Nat} {data : List DataResult} {s : State} (h : AtCycle i g .rw s)
    (hd : s.dataDraws = List.replicate k (.bit true) ++ data)
    (hl : ∀ l, s.params.readyPollLimit = some l → s.polls + k < l) : run k s = .next (polled k data s) := by
  induction k generalizing s with
  | zero =>
    obtain rfl : s.dataDraws = data := hd
    rw [run_zero, polled, List.replicate_zero, List.append_nil]
    rfl
  | succ k ih =>
    have poll := exec_busyPoll h (nextData_cons hd) fun l e => by have := hl l e; omega
    rw [drewData_cons hd] at poll
    have below : ∀ l, s.params.readyPollLimit = some l → s.polls + 1 + k < l := fun l e => by have := hl l e; omega
    refine Eq.trans (run_exec h.1 poll) (Eq.trans (ih h rfl below) ?_)
    simp only [polled, List.append_assoc, List.replicate_succ, List.singleton_append, Nat.add_assoc, Nat.add_comm 1]

/-- With the limit `l`, a command whose first `l` polls read 1 ends with TIMEOUT. -/
theorem run_timeout {l : Nat} {data : List DataResult} {s : State} (hi : RunsCycle i) (hw : i.WellFormed)
    (hs : s.seq = .busy (.instr i) .start) (hl : s.life = .ready) (hlim : s.params.readyPollLimit = some l)
    (hpos : 1 ≤ l) (hd : s.dataDraws = List.replicate l (.bit true) ++ data) :
    run l s = .next (answered .timeout (zeroOf s)
      { s with
        dataDraws := data
        trace := s.trace ++ List.replicate l (.rd (.bit true))
        polls := l, n := 0, gain := cycleGain (.instr i) s }) := by
  obtain ⟨k, rfl⟩ := Nat.exists_eq_add_of_le' hpos
  have atStart := atCycle_begun s hi hw
  have below : ∀ l, s.params.readyPollLimit = some l → 0 + k < l := by
    intro l e
    obtain rfl := Option.some.inj (hlim.symm.trans e)
    omega
  rw [List.replicate_succ', List.append_assoc] at hd
  rw [run_start hi hw hs hl (by omega), run_add (run_busyPolls atStart hd below)]
  refine Eq.trans (run_exec rfl (exec_lastPoll atStart (nextData_cons rfl) hlim (by simp [polled, begun]))) ?_
  simp [run_zero, polled, begun, cycleStart, State.goto, drewData, answered, zeroOf, List.replicate_succ']

/-- `s` once its ready-wait has ended after `k` polls that read 1, the data draws `data` being left. -/
def waited (k : Nat) (data : List DataResult) (s : State) : State :=
  { s with
    dataDraws := data
    trace := s.trace ++ (List.replicate k (.rd (.bit true)) ++ [.rd (.bit false)])
    polls := s.polls + k
    acc := 0#24 }

theorem run_readyWait {k : Nat} {data : List DataResult} {s : State} (h : AtCycle i g .rw s)
    (hd : s.dataDraws = List.replicate k (.bit true) ++ .bit false :: data)
    (hl : ∀ l, s.params.readyPollLimit = some l → s.polls + k < l) :
    run (k + 1) s = .next ((waited k data s).goto (.instr i) (.cyc (.dh 0))) := by
  rw [run_add (run_busyPolls h hd hl)]
  refine Eq.trans (run_exec h.1 (exec_readyPoll h (nextData_cons rfl))) ?_
  simp [run_zero, drewData, polled, waited, State.goto]

/-- `s` once data pulses have read `bits`, the draws `caps` and `data` being left. -/
def dataPulsed (bits : List Bool) (caps : List CapResult) (data : List DataResult) (s : State) : State :=
  { s with
    capDraws := caps
    dataDraws := data
    trace := s.trace ++ bits.flatMap dataPulseEvents
    acc := bits.foldl shiftIn s.acc
    n := s.n + bits.length
    clockLevel := .low }

theorem run_dataPulse {k : Nat} {b : Bool} {caps : List CapResult} {data : List DataResult} {s : State}
    (h : AtCycle i g (.dh k) s) (hc : s.capDraws = .ok :: .ok :: caps) (hd : s.dataDraws = .bit b :: data) :
    run 3 s = .next ((dataPulsed [b] caps data s).goto (.instr i) (.cyc (if k < 23 then .dh (k + 1) else .mh 1))) := by
  refine Eq.trans (run_exec h.1 (exec_dataRise h (nextCap_cons hc))) ?_
  refine Eq.trans (run_exec rfl (exec_sample ⟨rfl, h.2⟩ (nextData_cons hd))) ?_
  refine Eq.trans (run_exec rfl (exec_dataFall ⟨rfl, h.2⟩ (nextCap_cons (congrArg List.tail hc)))) ?_
  simp [run_zero, dataPulsed, dataPulseEvents, State.goto, drewCap, drewData, hc, hd]

/-- From data pulse `k` the pulses that are left read the bits that are left. -/
theorem run_dataPulses {k : Nat} {bits : List Bool} {caps : List CapResult} {data : List DataResult} {s : State}
    (h : AtCycle i g (.dh k) s) (hk : k < 24) (hbits : k + bits.length = 24)
    (hc : s.capDraws = List.replicate (2 * bits.length) .ok ++ caps) (hd : s.dataDraws = bits.map .bit ++ data) :
    run (3 * bits.length) s = .next ((dataPulsed bits caps data s).goto (.instr i) (.cyc (.mh 1))) := by
  induction bits generalizing k s with
  | nil => rw [List.length_nil] at hbits; omega
  | cons b bits ih =>
    rw [List.length_cons] at hbits
    have pulse := run_dataPulse h hc hd
    rw [List.length_cons, Nat.mul_succ, Nat.add_comm, run_add pulse]
    by_cases hlast : k < 23
    · rw [if_pos hlast]
      refine Eq.trans (ih ⟨rfl, h.2⟩ (by omega) (by omega) rfl rfl) ?_
      simp [dataPulsed, State.goto, Nat.add_assoc, Nat.add_comm 1]
    · obtain rfl : bits = [] := List.eq_nil_of_length_eq_zero (by omega)
      rw [if_neg hlast]
      rfl

/-- `s` once `m` mode pulses have been driven, the draws `caps` being left. -/
def modePulsed (m : Nat) (caps : List CapResult) (s : State) : State :=
  { s with
    capDraws := caps
    trace := s.trace ++ (List.replicate m modePulseEvents).flatten
    n := s.n + m
    clockLevel := .low }

/-- `s` once its cycle has completed (40_sequencer R117). -/
def latched (g : GainCode) (s : State) : State := { s with chipMode := .known g }

theorem run_modePulse {j : Nat} {caps : List CapResult} {s : State} (h : AtCycle i g (.mh j) s) (hj : j < extra g)
    (hc : s.capDraws = .ok :: .ok :: caps) :
    run 2 s = .next ((modePulsed 1 caps s).goto (.instr i) (.cyc (.mh (j + 1)))) := by
  refine Eq.trans (run_exec h.1 (exec_modeRise h (nextCap_cons hc))) ?_
  refine Eq.trans (run_exec rfl (exec_modeFall ⟨rfl, h.2⟩ (nextCap_cons (congrArg List.tail hc)) hj)) ?_
  simp [run_zero, modePulsed, modePulseEvents, State.goto, drewCap, hc]

theorem run_lastModePulse {j : Nat} {caps : List CapResult} {s : State} (h : AtCycle i g (.mh j) s) (hj : extra g ≤ j)
    (hc : s.capDraws = .ok :: .ok :: caps) :
    run 2 s = .next (cycleAfter i (.done, latched g (modePulsed 1 caps s))) := by
  rw [← cycleAfter_goto i (.instr i) (.cyc (.ml j)) (.done, _)]
  refine Eq.trans (run_exec h.1 (exec_modeRise h (nextCap_cons hc))) ?_
  refine Eq.trans (run_exec rfl (exec_lastFall ⟨rfl, h.2⟩ (nextCap_cons (congrArg List.tail hc)) hj)) ?_
  simp [run_zero, latched, modePulsed, modePulseEvents, State.goto, drewCap, hc]

/-- From mode pulse `j` the pulses that are left complete the cycle. -/
theorem run_modePulses {j m : Nat} {caps : List CapResult} {s : State} (h : AtCycle i g (.mh j) s)
    (hj : j + m = extra g) (hc : s.capDraws = List.replicate (2 * (m + 1)) .ok ++ caps) :
    run (2 * (m + 1)) s = .next (cycleAfter i (.done, latched g (modePulsed (m + 1) caps s))) := by
  induction m generalizing j s with
  | zero => exact run_lastModePulse h hj.ge hc
  | succ m ih =>
    rw [Nat.mul_succ, Nat.add_comm, run_add (run_modePulse h (by omega) hc),
      ← cycleAfter_goto i (.instr i) (.cyc (.mh (j + 1))) (.done, _)]
    refine Eq.trans (ih ⟨rfl, h.2⟩ (by omega) rfl) ?_
    simp [latched, modePulsed, State.goto, List.replicate_succ, Nat.add_assoc, Nat.add_comm 1]

theorem length_wireBits (raw : Raw) : (wireBits raw).length = 24 := by
  rw [wireBits, List.length_map, List.length_range]

/-- The effects of the three phases of a cycle are those of the whole cycle. -/
theorem phases_eq_cycled (k : Nat) (raw : Raw) (s : State) (hgain : cycleGain (.instr i) s = g)
    (c c' : Cmd) (p p' : Point) (caps : List CapResult) (data : List DataResult) :
    latched g (modePulsed (extra g) (s.capDraws.drop (2 * totalPulses g))
      ((dataPulsed (wireBits raw) caps (s.dataDraws.drop (k + 25)) ((waited k data (begun i s)).goto c p)).goto c' p')) =
    ({ cycled k raw g s with gain := g } : State).goto c' p' := by
  simp [latched, modePulsed, dataPulsed, waited, begun, cycleStart, cycled, State.goto, foldl_shiftIn_wireBits,
    length_wireBits, totalPulses, cycleEvents, hgain]

/-- A whole cycle, from the start of READ or SET_GAIN in READY, up to what the command does with it. -/
theorem run_cycle {k : Nat} {raw : Raw} {s : State} (hi : RunsCycle i) (hw : i.WellFormed)
    (hs : s.seq = .busy (.instr i) .start) (hl : s.life = .ready) (hgain : cycleGain (.instr i) s = g) (hg : g ≠ 0#2)
    (hlim : ∀ l, s.params.readyPollLimit = some l → k < l) (healthy : HealthyFor (2 * totalPulses g) (k + 25) s)
    (ready : ReadyAfter k s) (sends : ChipSends raw (k + 1) s) :
    run (cycleSteps k g) s = .next (cycleAfter i (.done, { cycled k raw g s with gain := g })) := by
  obtain ⟨m, hm⟩ : ∃ m, extra g = m + 1 := Nat.exists_eq_add_of_le' (one_le_extra hg)
  have atStart : AtCycle i g .rw (begun i s) := hgain ▸ atCycle_begun s hi hw
  have hlen := length_wireBits raw
  have limit : ∀ l, s.params.readyPollLimit = some l → 0 + k < l := fun l e => (Nat.zero_add k).symm ▸ hlim l e
  have caps : s.capDraws = List.replicate (2 * (wireBits raw).length) .ok ++
      (List.replicate (2 * (m + 1)) .ok ++ s.capDraws.drop (2 * totalPulses g)) := by
    rw [← List.append_assoc, List.replicate_append_replicate, hlen, ← hm, ← Nat.mul_add]
    exact healthy.capDraws
  have wait := run_readyWait atStart (ready.dataDraws sends) limit
  have data := (run_add wait (b := 3 * (wireBits raw).length)).trans
    (run_dataPulses ⟨rfl, atStart.2⟩ (by omega) (by omega) caps rfl)
  have mode := (run_add data (b := 2 * (m + 1))).trans (run_modePulses (j := 1) ⟨rfl, atStart.2⟩ (by omega) rfl)
  have steps : cycleSteps k g = k + 1 + 3 * (wireBits raw).length + 2 * (m + 1) := by rw [cycleSteps, hlen, hm]
  rw [run_start hi hw hs hl (by omega), steps, mode, ← hm, phases_eq_cycled k raw s hgain,
    cycleAfter_goto i _ _ (.done, _)]

end Runs

end Sys2Proof.Machine

namespace Sys2Proof.SequencerRules

open Sys2Proof.Machine Sys2Proof.Safety

/-- Settles O33: the cycle completes (`run_cycle`), and READ keeps its sample. -/
theorem readRun : Obligations.ReadRun := by
  intro s k raw hs hl hg hlim hguard healthy ready sends
  have cycle := run_cycle (.inl rfl) rfl hs hl (g := s.gain) rfl hg hlim healthy ready sends
  exact cycle.trans (congrArg _ (readAfter_done hguard))

/-- Settles O37: all polls but the last are counted (`run_busyPolls`), and the last reaches the limit. -/
theorem timeoutRun : Obligations.TimeoutRun :=
  fun _ _ _ hl hlim hpos hd =>
    ⟨fun hs => run_timeout (.inl rfl) rfl hs hl hlim hpos hd,
      fun g hg hs => run_timeout (.inr ⟨g, rfl⟩) (decide_eq_true hg) hs hl hlim hpos hd⟩

/-- Settles O38: without a limit every poll that reads 1 is counted (`run_busyPolls`). -/
theorem readyWaitHangs : Obligations.ReadyWaitHangs :=
  fun _ _ _ _ _ h hnone hd => run_busyPolls h hd fun _ e => nomatch hnone.symm.trans e

end Sys2Proof.SequencerRules

namespace Sys2Proof.Machine

open Sys2Proof.Safety

/-! ### The clock writes of a cycle (40_sequencer R116) -/

theorem clockWrites_dataPulses (bits : List Bool) :
    (bits.flatMap dataPulseEvents).filterMap clockWrite = (List.replicate bits.length [true, false]).flatten := by
  rw [List.filterMap_flatMap, ← List.map_const', List.flatMap_def]
  rfl

theorem clockWrites_modePulses (m : Nat) :
    (List.replicate m modePulseEvents).flatten.filterMap clockWrite = (List.replicate m [true, false]).flatten := by
  rw [List.filterMap_flatten, List.map_replicate]
  rfl

/-- A poll writes no clock, and each pulse of either kind writes 1 and then 0. -/
theorem clockWrites_cycleEvents (k : Nat) (raw : Raw) (g : GainCode) :
    (cycleEvents k raw g).filterMap clockWrite = (List.replicate (totalPulses g) [true, false]).flatten := by
  have polls : (List.replicate k (Event.rd (.bit true))).filterMap clockWrite = [] := by
    rw [List.filterMap_replicate_of_none rfl]
  rw [cycleEvents, List.filterMap_append, polls, List.nil_append, List.filterMap_cons_none rfl, List.filterMap_append,
    clockWrites_dataPulses, clockWrites_modePulses, length_wireBits, totalPulses, ← List.replicate_append_replicate,
    List.flatten_append]

/-- The 24-bit pattern of a number of 24 bits is read back as it, at every W of at least 24 (40_sequencer R119). -/
theorem signExtend_ofInt {w : Nat} {x : Int} (hw : 24 ≤ w) (hlo : -8388608 ≤ x) (hhi : x ≤ 8388607) :
    (signExtend w (BitVec.ofInt 24 x)).signed = x :=
  (signExtend_signed _ hw).trans (BitVec.toInt_ofInt_eq_self (by decide) hlo (Int.lt_add_one_of_le hhi))

end Sys2Proof.Machine

namespace Sys2Proof.SequencerRules

open Sys2Proof.Machine Sys2Proof.Safety

/-- Settles O36: the events of a whole READ (`readRun`) are those of its cycle. -/
theorem readPulseCount : Obligations.ReadPulseCount := by
  intro s k raw hs hl hg hlim hguard healthy ready sends
  exact ⟨_, cycleEvents k raw s.gain, readRun s k raw hs hl hg hlim hguard healthy ready sends, rfl, rfl,
    clockWrites_cycleEvents k raw s.gain⟩

/-- Settles O41: a whole READ (`readRun`) ends with the sign extension of the pattern, whose signed value is `x`. -/
theorem readRoundTrip : Obligations.ReadRoundTrip := by
  intro s k x hlo hhi hw hs hl hg hlim hguard healthy ready sends
  exact ⟨_, readRun s k _ hs hl hg hlim hguard healthy ready sends, rfl, signExtend_ofInt hw hlo hhi, rfl, rfl, rfl⟩

end Sys2Proof.SequencerRules

namespace Sys2Proof.Machine

open Sys2Proof.Safety

/-! ### What each line primitive does to the lines (40_sequencer R100, R102, R104) -/

/-- The line state, and the line events recorded. -/
structure LineView where
  trace : List Event
  clockLevel : ClockLevel
  dataOwned : Bool
  clockOwned : Bool

/-- The lines of a state. -/
def State.lineView (s : State) : LineView := ⟨s.trace, s.clockLevel, s.dataOwned, s.clockOwned⟩

/-- The line state once the primitive of the event `e` has been made and recorded. The controller configures data as its
input and clock as its output only (41_session R134), so other configures are given no effect here. -/
def LineView.after (v : LineView) (e : Event) : LineView :=
  let v := { v with trace := v.trace ++ [e] }
  match e with
  | .cfg .data .input .ok => { v with dataOwned := true }
  | .cfg .clock .output .ok => { v with clockOwned := true }
  | .cfg _ _ _ => v
  | .rd _ => v
  | .wr l r => { v with clockLevel := levelAfter l r }
  | .rel .data _ => { v with dataOwned := false }
  | .rel .clock _ => { v with clockOwned := false, clockLevel := .undriven }

/-- From `s` to `t` the lines are as they were, or as the one event recorded has them. -/
def LineStep (s t : State) : Prop :=
  t.lineView = s.lineView ∨ ∃ e, t.lineView = s.lineView.after e

theorem lineView_afterRelease (l : Line) (s : State) :
    (afterRelease l s).lineView = s.lineView.after (.rel l s.nextCap) := by
  cases l
  · rw [afterRelease_data]; rfl
  · rw [afterRelease_clock]; rfl

/-! #### INIT and RELEASE -/

theorem lineView_initFail (i : Instr) (s : State) : (initFail i s).lineView = s.lineView :=
  initFail_rec (motive := fun t => t.lineView = s.lineView) i s (fun _ _ => rfl) (fun _ _ => rfl)

theorem lineView_initTorn (i : Instr) (s : State) : (initTorn i s).lineView = s.lineView :=
  initTorn_rec (motive := fun t => t.lineView = s.lineView) i s (fun _ _ => rfl) (fun _ _ => rfl)

theorem lineView_releaseTorn (s : State) : (releaseTorn s).lineView = s.lineView :=
  releaseTorn_rec (motive := fun t => t.lineView = s.lineView) s (fun _ _ => rfl) (fun _ _ => rfl)

theorem lineView_endTeardown (s : State) : (endTeardown s).lineView = s.lineView := by
  unfold endTeardown
  split <;> rfl

theorem lineStep_initStep (g : GainCode) (s : State) : LineStep s (initStep g s) := by
  have torn (l : Line) : LineStep s (initTorn (.init g) (afterRelease l s)) :=
    .inr ⟨_, (lineView_initTorn _ _).trans (lineView_afterRelease l s)⟩
  refine initStep_rec g s ?tearFirst ?tear ?dataOk ?dataErr ?clockOk ?clockErr ?lowOk ?lowErr ?failTear
  case tearFirst => exact fun l _ _ _ => torn l
  case tear => exact fun l _ => torn l
  case dataOk =>
    rintro u rfl - -
    exact .inr ⟨.cfg .data .input .ok, congrArg (·.after (.cfg .data .input .ok)) (lineView_endTeardown s)⟩
  case dataErr =>
    rintro u rfl - -
    exact .inr ⟨.cfg .data .input .err, (lineView_initFail _ _).trans
      (congrArg (·.after (.cfg .data .input .err)) (lineView_endTeardown s))⟩
  case clockOk => exact fun _ _ => .inr ⟨.cfg .clock .output .ok, rfl⟩
  case clockErr => exact fun _ _ => .inr ⟨.cfg .clock .output .err, lineView_initFail _ _⟩
  case lowOk => exact fun _ _ => .inr ⟨.wr false .ok, rfl⟩
  case lowErr => exact fun _ _ => .inr ⟨.wr false .err, lineView_initFail _ _⟩
  case failTear => exact fun l _ => .inr ⟨_, (lineView_initFail _ _).trans (lineView_afterRelease l s)⟩

theorem lineStep_releaseStep (s : State) : LineStep s (releaseStep s) :=
  have torn (l : Line) : LineStep s (releaseTorn (afterRelease l s)) :=
    .inr ⟨_, (lineView_releaseTorn _).trans (lineView_afterRelease l s)⟩
  releaseStep_rec s (fun l _ => torn l) (fun _ _ => torn .clock) (fun _ _ _ => torn .data) (fun _ _ _ => .inl rfl)

/-! #### READ and SET_GAIN -/

theorem lineStep_cycleStep (g : GainCode) (p : CyclePoint) (s : State) : LineStep s (cycleStep g p s).2 := by
  refine cycleStep_rec (motive := fun r => LineStep s r.2) g p s ?pollZero ?pollOne ?pollLimit ?readErr ?riseData
    ?sampleBit ?fallData ?fallLastData ?riseMode ?fallMode ?fallLast ?writeErr
  case pollZero => exact fun _ _ => .inr ⟨.rd (.bit false), rfl⟩
  case pollOne => exact fun _ _ _ => .inr ⟨.rd (.bit true), rfl⟩
  case pollLimit => exact fun _ _ _ _ _ => .inr ⟨.rd (.bit true), rfl⟩
  case readErr => exact fun _ _ => .inr ⟨.rd .err, rfl⟩
  case sampleBit => exact fun _ b _ _ => .inr ⟨.rd (.bit b), rfl⟩
  case riseData | riseMode => intros; exact .inr ⟨.wr true .ok, rfl⟩
  case fallData | fallLastData | fallMode | fallLast => intros; exact .inr ⟨.wr false .ok, rfl⟩
  case writeErr => exact fun v _ _ => .inr ⟨.wr v .err, rfl⟩

theorem CycleFrom.lineView {i : Instr} {s u : State} {p : CyclePoint} (h : CycleFrom i s p u) :
    u.lineView = s.lineView := by
  cases h <;> rfl

theorem CycleThen.lineView {i : Instr} {r : CycleEnd × State} {t : State} (h : CycleThen i r t) :
    t.lineView = r.2.lineView := by
  cases h <;> rfl

theorem CycleCommandStep.lineStep {i : Instr} {s t : State} (h : CycleCommandStep i s t) : LineStep s t := by
  cases h with
  | refused => exact .inl rfl
  | @cycle p u _ start next =>
    have made := lineStep_cycleStep (cycleGain (.instr i) s) p u
    rwa [LineStep, ← next.lineView, start.lineView] at made

/-! #### The machine -/

theorem step_lineStep {s t : State} (h : step s = .next t) : LineStep s t := by
  refine step_cases (motive := LineStep) ?idle ?accept ?answered ?init ?release ?cycle s t h
  case idle => exact fun _ _ _ => .inl rfl
  case accept => exact fun _ _ _ _ _ => .inl rfl
  case answered => exact fun _ _ _ _ _ => .inl rfl
  case init => exact fun s g _ _ _ => lineStep_initStep g s
  case release => exact fun s _ _ => lineStep_releaseStep s
  case cycle => exact fun _ _ _ _ _ _ _ h => h.lineStep

theorem LineView.after_trace (v : LineView) (e : Event) : (v.after e).trace = v.trace ++ [e] := by
  unfold LineView.after
  split <;> rfl

/-- What writes the clock level. -/
theorem LineView.clockLevel_after {v : LineView} {e : Event} (h : (v.after e).clockLevel ≠ v.clockLevel) :
    ∃ r, (∃ b, e = .wr b r) ∨ e = .rel .clock r := by
  cases e with
  | wr b r => exact ⟨r, .inl ⟨b, rfl⟩⟩
  | rel l r => cases l; exacts [absurd rfl h, ⟨r, .inr rfl⟩]
  | rd r => exact absurd rfl h
  | cfg l d r => cases l <;> cases d <;> cases r <;> exact absurd rfl h

/-- What writes the ownership of the clock. -/
theorem LineView.clockOwned_after {v : LineView} {e : Event} (h : (v.after e).clockOwned ≠ v.clockOwned) :
    e = .cfg .clock .output .ok ∨ ∃ r, e = .rel .clock r := by
  cases e with
  | cfg l d r => revert h; cases l <;> cases d <;> cases r <;> simp [LineView.after]
  | rel l r => cases l; exacts [absurd rfl h, .inr ⟨r, rfl⟩]
  | rd r | wr b r => exact absurd rfl h

/-- What writes the ownership of the data line. -/
theorem LineView.dataOwned_after {v : LineView} {e : Event} (h : (v.after e).dataOwned ≠ v.dataOwned) :
    e = .cfg .data .input .ok ∨ ∃ r, e = .rel .data r := by
  cases e with
  | cfg l d r => revert h; cases l <;> cases d <;> cases r <;> simp [LineView.after]
  | rel l r => cases l; exacts [.inr ⟨r, rfl⟩, absurd rfl h]
  | rd r | wr b r => exact absurd rfl h

/-- The event recorded says what has been done to the lines. -/
theorem LineStep.of_event {s t : State} {e : Event} (h : LineStep s t) (ht : t.trace = s.trace ++ [e]) :
    t.lineView = s.lineView.after e := by
  obtain same | ⟨e', made⟩ := h
  · have unrecorded : t.trace = s.trace := congrArg LineView.trace same
    simp [ht] at unrecorded
  · have recorded : t.trace = s.trace ++ [e'] := (congrArg LineView.trace made).trans (LineView.after_trace _ _)
    obtain rfl : e' = e := by simpa [recorded] using ht
    exact made

/-- Where a part `f` of the line state has been written, the event recorded is one that writes it. -/
theorem LineStep.writer {α : Type} {s t : State} (h : LineStep s t) (f : LineView → α)
    (ne : f t.lineView ≠ f s.lineView) :
    ∃ e, t.trace = s.trace ++ [e] ∧ f (s.lineView.after e) ≠ f s.lineView := by
  obtain same | ⟨e, made⟩ := h
  · exact absurd (congrArg f same) ne
  · exact ⟨e, (congrArg LineView.trace made).trans (LineView.after_trace _ _), made ▸ ne⟩

end Sys2Proof.Machine

namespace Sys2Proof.SequencerRules

open Sys2Proof.Machine Sys2Proof.Safety

/-- Settles O56: the event recorded says what has been done to the lines (`LineStep.of_event`), and what has been written
says which event it is (`LineStep.writer`). -/
theorem lineStateWriters : Obligations.LineStateWriters := by
  intro s t h
  have made := step_lineStep h
  have level {e : Event} (ht : t.trace = s.trace ++ [e]) := congrArg LineView.clockLevel (made.of_event ht)
  have data {e : Event} (ht : t.trace = s.trace ++ [e]) := congrArg LineView.dataOwned (made.of_event ht)
  have clock {e : Event} (ht : t.trace = s.trace ++ [e]) := congrArg LineView.clockOwned (made.of_event ht)
  refine ⟨fun _ => level, fun _ => level, fun _ ht => ⟨level ht, clock ht⟩, fun _ => data, data, clock,
    fun ne => ?level, fun ne => ?clock, fun ne => ?data⟩
  case level =>
    obtain ⟨e, ht, written⟩ := made.writer LineView.clockLevel ne
    obtain ⟨r, ⟨v, rfl⟩ | rfl⟩ := LineView.clockLevel_after written
    · exact ⟨r, .inl ⟨v, ht⟩⟩
    · exact ⟨r, .inr ht⟩
  case clock =>
    obtain ⟨e, ht, written⟩ := made.writer LineView.clockOwned ne
    obtain rfl | ⟨r, rfl⟩ := LineView.clockOwned_after written
    · exact .inl ht
    · exact .inr ⟨r, ht⟩
  case data =>
    obtain ⟨e, ht, written⟩ := made.writer LineView.dataOwned ne
    obtain rfl | ⟨r, rfl⟩ := LineView.dataOwned_after written
    · exact .inl ht
    · exact .inr ⟨r, ht⟩

end Sys2Proof.SequencerRules

/-! PROOFS of the family 41_session: the acquisitions of INIT, its teardown at `fail`, and whole runs of INIT and RELEASE. -/

namespace Sys2Proof.Machine

open Sys2Proof.Safety

/-! ### INIT's acquisitions (41_session R134), and what follows a failed one (R135) -/

/-- INIT of no session begins with the acquisition. -/
theorem initStep_start_fresh {s : State} {g : GainCode} (h : s.seq = .busy (.instr (.init g)) .start)
    (hl : s.life = .uninit) : initStep g s = acquireData (.init g) s := by
  have hbegin : ¬ (s.life ≠ .uninit ∧ s.heldLine ≠ none) := fun c => c.1 hl
  simp only [initStep, h, Seq.point, initBegin, if_neg hbegin, endTeardown, if_pos hl]

theorem initStep_cfgClock {s : State} {g : GainCode} (h : s.seq = .busy (.instr (.init g)) .cfgClock) :
    initStep g s = acquireClock (.init g) s := by
  simp only [initStep, h, Seq.point]

theorem initStep_driveLow {s : State} {g : GainCode} (h : s.seq = .busy (.instr (.init g)) .driveLow) :
    initStep g s = driveClockLow g s := by
  simp only [initStep, h, Seq.point]

theorem initStep_failTear {s : State} {g : GainCode} {l : Line} (h : s.seq = .busy (.instr (.init g)) (.failTear l)) :
    initStep g s = initFail (.init g) (afterRelease l s) := by
  simp only [initStep, h, Seq.point, afterRelease]

theorem acquireClock_ok {s : State} (i : Instr) (h : s.nextCap = .ok) :
    acquireClock i s =
      ({ drewCap (.cfg .clock .output .ok) s with clockOwned := true } : State).goto (.instr i) .driveLow := by
  simp [acquireClock, lineConfigure_ok _ _ h, drewCap, State.popCap, State.record]

theorem driveClockLow_ok {s : State} (g : GainCode) (h : s.nextCap = .ok) :
    driveClockLow g s = initDone g (afterWrite false .ok s) := by
  rw [driveClockLow, lineWrite_ok _ h]; rfl

theorem acquireData_err {s : State} (i : Instr) (h : s.nextCap = .err) :
    acquireData i s = initFail i (drewCap (.cfg .data .input .err) s) := by
  rw [acquireData, lineConfigure_err _ _ h]; rfl

theorem acquireClock_err {s : State} (i : Instr) (h : s.nextCap = .err) :
    acquireClock i s = initFail i (drewCap (.cfg .clock .output .err) s) := by
  rw [acquireClock, lineConfigure_err _ _ h]; rfl

theorem driveClockLow_err {s : State} (g : GainCode) (h : s.nextCap = .err) :
    driveClockLow g s = initFail (.init g) (afterWrite false .err s) := by
  rw [driveClockLow, lineWrite_err _ h]; rfl

theorem initFail_held {s : State} {l : Line} (i : Instr) (h : s.heldLine = some l) :
    initFail i s = s.goto (.instr i) (.failTear l) := by
  simp only [initFail, h]

theorem initFail_none {s : State} (i : Instr) (h : s.heldLine = none) :
    initFail i s = (closeTeardown s).answer .pinInitError := by
  simp only [initFail, h]

/-! #### The steps of INIT, point by point -/

section InitSteps

variable {g : GainCode} {s : State}

theorem exec_configureData (hg : g ≠ 0#2) (hs : s.seq = .busy (.instr (.init g)) .start) (hl : s.life = .uninit)
    (hc : s.nextCap = .ok) :
    exec (.init g) s = .next
      { drewCap (.cfg .data .input .ok) s with dataOwned := true, seq := .busy (.instr (.init g)) .cfgClock } := by
  rw [exec_init s hg, initStep_start_fresh hs hl, acquireData_ok _ hc]; rfl

theorem exec_configureClock (hg : g ≠ 0#2) (hs : s.seq = .busy (.instr (.init g)) .cfgClock) (hc : s.nextCap = .ok) :
    exec (.init g) s = .next
      { drewCap (.cfg .clock .output .ok) s with clockOwned := true, seq := .busy (.instr (.init g)) .driveLow } := by
  rw [exec_init s hg, initStep_cfgClock hs, acquireClock_ok _ hc]; rfl

theorem exec_driveLow (hg : g ≠ 0#2) (hs : s.seq = .busy (.instr (.init g)) .driveLow) (hc : s.nextCap = .ok) :
    exec (.init g) s = .next (answered .ok (zeroOf s)
      { drewCap (.wr false .ok) s with clockLevel := .low, gain := g, chipMode := .unknown, life := .ready }) := by
  rw [exec_init s hg, initStep_driveLow hs, driveClockLow_ok _ hc]; rfl

/-- A clause of `Scope.initReconstructs`: the second release of the teardown. -/
theorem exec_tear_data (hg : g ≠ 0#2) (hl : s.life ≠ .uninit) (hs : s.seq = .busy (.instr (.init g)) (.tear .data))
    (ho : owns s true false) :
    exec (.init g) s = .next
      { drewCap (.rel .data s.nextCap) s with dataOwned := false, seq := .busy (.instr (.init g)) .cfgData } := by
  obtain ⟨-, release, -⟩ := Scope.initReconstructs g s hg hl
  exact release hs ho

/-- A clause of `Scope.initReconstructs`: the data configure that closes the teardown. -/
theorem exec_reconfigureData (hg : g ≠ 0#2) (hl : s.life ≠ .uninit) (hs : s.seq = .busy (.instr (.init g)) .cfgData)
    (hc : s.nextCap = .ok) :
    exec (.init g) s = .next
      { drewCap (.cfg .data .input .ok) s with
        dataOwned := true, chipMode := .unknown, life := .uninit, seq := .busy (.instr (.init g)) .cfgClock } := by
  obtain ⟨-, -, configure⟩ := Scope.initReconstructs g s hg hl
  exact configure hs hc

/-- With no line held INIT responds in the step of its failure. -/
theorem initFail_configureData (h : owns s false false) :
    initFail (.init g) (drewCap (.cfg .data .input .err) s) = answered .pinInitError (zeroOf s)
      { drewCap (.cfg .data .input .err) s with chipMode := .unknown, life := .uninit } := by
  have unheld : (drewCap (.cfg .data .input .err) s).heldLine = none := heldLine_none h.2 h.1
  rw [initFail_none _ unheld]; rfl

theorem exec_configureData_err (hg : g ≠ 0#2) (hs : s.seq = .busy (.instr (.init g)) .start) (hl : s.life = .uninit)
    (ho : owns s false false) (hc : s.nextCap = .err) :
    exec (.init g) s = .next (answered .pinInitError (zeroOf s)
      { drewCap (.cfg .data .input .err) s with chipMode := .unknown, life := .uninit }) := by
  rw [exec_init s hg, initStep_start_fresh hs hl, acquireData_err _ hc, initFail_configureData ho]

theorem exec_configureData_err_torn (hg : g ≠ 0#2) (hs : s.seq = .busy (.instr (.init g)) .cfgData)
    (hl : s.life ≠ .uninit) (ho : owns s false false) (hc : s.nextCap = .err) :
    exec (.init g) s = .next (answered .pinInitError (zeroOf s)
      { drewCap (.cfg .data .input .err) s with chipMode := .unknown, life := .uninit }) := by
  have torn : (closeTeardown s).nextCap = .err := hc
  have unheld : owns (closeTeardown s) false false := ho
  rw [exec_init s hg, initStep_cfgData hs, endTeardown_session hl, acquireData_err _ torn,
    initFail_configureData unheld]
  rfl

theorem exec_configureClock_err (hg : g ≠ 0#2) (hs : s.seq = .busy (.instr (.init g)) .cfgClock)
    (ho : owns s true false) (hc : s.nextCap = .err) :
    exec (.init g) s = .next
      { drewCap (.cfg .clock .output .err) s with seq := .busy (.instr (.init g)) (.failTear .data) } := by
  have held : (drewCap (.cfg .clock .output .err) s).heldLine = some .data := heldLine_data ho.2 ho.1
  rw [exec_init s hg, initStep_cfgClock hs, acquireClock_err _ hc, initFail_held _ held]; rfl

theorem exec_driveLow_err (hg : g ≠ 0#2) (hs : s.seq = .busy (.instr (.init g)) .driveLow) (ho : owns s true true)
    (hc : s.nextCap = .err) :
    exec (.init g) s = .next
      { drewCap (.wr false .err) s with
        clockLevel := .unknown, seq := .busy (.instr (.init g)) (.failTear .clock) } := by
  have held : (afterWrite false .err s).heldLine = some .clock := heldLine_clock ho.2
  rw [exec_init s hg, initStep_driveLow hs, driveClockLow_err _ hc, initFail_held _ held]; rfl

theorem exec_failTear_clock (hg : g ≠ 0#2) (hs : s.seq = .busy (.instr (.init g)) (.failTear .clock))
    (ho : owns s true true) :
    exec (.init g) s = .next
      { drewCap (.rel .clock s.nextCap) s with
        clockOwned := false, clockLevel := .undriven, seq := .busy (.instr (.init g)) (.failTear .data) } := by
  rw [exec_init s hg, initStep_failTear hs, initFail_held _ (heldLine_afterRelease_clock ho.1), afterRelease_clock]; rfl

theorem exec_failTear_data (hg : g ≠ 0#2) (hs : s.seq = .busy (.instr (.init g)) (.failTear .data))
    (ho : owns s true false) :
    exec (.init g) s = .next (answered .pinInitError (zeroOf s)
      { drewCap (.rel .data s.nextCap) s with dataOwned := false, chipMode := .unknown, life := .uninit }) := by
  rw [exec_init s hg, initStep_failTear hs, initFail_none _ (heldLine_afterRelease_data ho.2), afterRelease_data]; rfl

end InitSteps

/-- A clause of `Scope.releaseSteps`: the last release of RELEASE, at the point that names it. -/
theorem exec_release_tear_data {s : State} (hs : s.seq = .busy (.instr .release) (.tear .data)) (ho : owns s true false) :
    exec .release s = .next (answered .ok (zeroOf s)
      { drewCap (.rel .data s.nextCap) s with dataOwned := false, chipMode := .unknown, life := .uninit }) := by
  have named : ∀ l, Point.tear .data = .tear l → s.heldLine = some l := by
    rintro _ ⟨⟩
    exact heldLine_data ho.2 ho.1
  obtain ⟨-, -, last, -⟩ := Scope.releaseSteps s _ hs named
  exact last ho

end Sys2Proof.Machine

namespace Sys2Proof.SessionRules

open Sys2Proof.Machine Sys2Proof.Safety

/-- Settles O14, acquisition by acquisition. -/
theorem initAcquires : Obligations.InitAcquires :=
  fun _ _ hg hc =>
    ⟨fun hs hl => exec_configureData hg hs hl hc, fun hs => exec_configureClock hg hs hc,
      fun hs => exec_driveLow hg hs hc⟩

/-- Settles O15: what INIT does at `fail` goes by the line still held there. -/
theorem initFails : Obligations.InitFails :=
  fun _ _ hg hc =>
    ⟨fun hs hl ho => exec_configureData_err hg hs hl ho hc, fun hs hl ho => exec_configureData_err_torn hg hs hl ho hc,
      fun hs ho => exec_configureClock_err hg hs ho hc, fun hs ho => exec_driveLow_err hg hs ho hc⟩

/-- Settles O16: the clock's release leaves the data line held, and that one's leaves none. -/
theorem initFailReleases : Obligations.InitFailReleases :=
  fun _ _ hg => ⟨exec_failTear_clock hg, exec_failTear_data hg⟩

/-- Settles O59: every step keeps the data path (`DataKept`), and only INIT's last step does not keep the gain. -/
theorem sessionFrame : Obligations.SessionFrame := by
  have framed {i : Instr} {s t : State} (h : DataKept s t) (hg : t.gain = s.gain ∨ ∃ g, i = .init g ∧ t.gain = g) :
      t.acc = s.acc ∧ t.result = s.result ∧ t.n = s.n ∧ t.polls = s.polls ∧ t.dataDraws = s.dataDraws ∧
      t.pending = s.pending ∧ t.params = s.params ∧ (t.gain = s.gain ∨ ∃ g, i = .init g ∧ t.gain = g) :=
    ⟨h.acc, h.result, h.n, h.polls, h.dataDraws, h.pending, h.params, hg⟩
  rintro i s t (rfl | ⟨g, rfl⟩) h
  · obtain rfl := Host.Outcome.next.inj h
    have keeps := sessionKeeps_releaseStep s
    exact framed keeps.toDataKept (.inl keeps.gain)
  · by_cases hg : g = 0#2
    · subst hg
      obtain rfl := Host.Outcome.next.inj h
      have keeps := sessionKeeps_answer .invalidArgument s
      exact framed keeps.toDataKept (.inl keeps.gain)
    · rw [exec_init s hg] at h
      obtain rfl := Host.Outcome.next.inj h
      refine framed (dataKept_initStep g s) ?_
      obtain ⟨-, hdone⟩ | keeps := initStep_done_or_keeps g s
      · exact .inr ⟨g, rfl, hdone ▸ rfl⟩
      · exact .inl keeps.gain

end Sys2Proof.SessionRules

namespace Sys2Proof.Machine

open Sys2Proof.Safety

/-! ### Runs of INIT and RELEASE whose draws are listed (41_session R137, R141) -/

section Runs

variable {g : GainCode} {s : State} {rest : List CapResult}

/-- INIT of no session goes on from its data configure. -/
theorem run_configureData {k : Nat} (hg : g ≠ 0#2) (hs : s.seq = .busy (.instr (.init g)) .start)
    (hl : s.life = .uninit) (hcap : s.capDraws = .ok :: rest) :
    run (k + 1) s = run k
      { s with
        capDraws := rest
        trace := s.trace ++ [.cfg .data .input .ok]
        dataOwned := true, seq := .busy (.instr (.init g)) .cfgClock } := by
  have data := exec_configureData hg hs hl (nextCap_cons hcap)
  rw [drewCap_cons _ hcap] at data
  exact run_exec hs data

/-- Once data is acquired, the two primitives that are left complete INIT. -/
theorem run_acquireClock (hg : g ≠ 0#2) (hs : s.seq = .busy (.instr (.init g)) .cfgClock)
    (hcap : s.capDraws = .ok :: .ok :: rest) :
    run 2 s = .next (answered .ok (zeroOf s)
      { s with
        capDraws := rest
        trace := s.trace ++ [.cfg .clock .output .ok, .wr false .ok]
        clockOwned := true, clockLevel := .low, gain := g, chipMode := .unknown, life := .ready }) := by
  have clock := exec_configureClock hg hs (nextCap_cons hcap)
  rw [drewCap_cons _ hcap] at clock
  refine Eq.trans (run_exec hs clock) ?_
  refine Eq.trans (run_exec rfl (exec_driveLow hg rfl rfl)) ?_
  simp [run_zero, drewCap, answered, zeroOf]

/-- The teardown at `fail` when only the data line has been acquired. -/
theorem run_failTear_data {r : CapResult} (hg : g ≠ 0#2) (hs : s.seq = .busy (.instr (.init g)) (.failTear .data))
    (ho : owns s true false) (hcap : s.capDraws = r :: rest) :
    run 1 s = .next (answered .pinInitError (zeroOf s)
      { s with
        capDraws := rest
        trace := s.trace ++ [.rel .data r]
        dataOwned := false, chipMode := .unknown, life := .uninit }) := by
  have data := exec_failTear_data hg hs ho
  rw [drewCap_cons _ hcap, nextCap_cons hcap] at data
  exact run_exec hs data

/-- The teardown at `fail` when both lines have been acquired. -/
theorem run_failTear_clock {r1 r2 : CapResult} (hg : g ≠ 0#2)
    (hs : s.seq = .busy (.instr (.init g)) (.failTear .clock)) (ho : owns s true true)
    (hcap : s.capDraws = r1 :: r2 :: rest) :
    run 2 s = .next (answered .pinInitError (zeroOf s)
      { s with
        capDraws := rest
        trace := s.trace ++ [.rel .clock r1, .rel .data r2]
        dataOwned := false, clockOwned := false, clockLevel := .undriven, chipMode := .unknown, life := .uninit }) := by
  have clock := exec_failTear_clock hg hs ho
  rw [drewCap_cons _ hcap, nextCap_cons hcap] at clock
  refine Eq.trans (run_exec hs clock) ?_
  refine Eq.trans (run_failTear_data hg rfl ⟨ho.1, rfl⟩ rfl) ?_
  simp [answered, zeroOf]

/-- The two releases with which INIT of an existing session begins (41_session R133). -/
theorem run_initTeardown {r1 r2 : CapResult} (hg : g ≠ 0#2) (hs : s.seq = .busy (.instr (.init g)) .start)
    (hl : s.life ≠ .uninit) (ho : owns s true true) (hcap : s.capDraws = r1 :: r2 :: rest) :
    run 2 s = .next
      { s with
        capDraws := rest
        trace := s.trace ++ [.rel .clock r1, .rel .data r2]
        dataOwned := false, clockOwned := false, clockLevel := .undriven
        seq := .busy (.instr (.init g)) .cfgData } := by
  obtain ⟨releases, -, -⟩ := Scope.initReconstructs g s hg hl
  have clock := releases hs ho
  rw [drewCap_cons _ hcap, nextCap_cons hcap] at clock
  refine Eq.trans (run_exec hs clock) ?_
  refine Eq.trans (run_exec rfl (exec_tear_data hg hl rfl ⟨ho.1, rfl⟩)) ?_
  simp [run_zero, drewCap, State.nextCap]

end Runs

end Sys2Proof.Machine

namespace Sys2Proof.SessionRules

open Sys2Proof.Machine Sys2Proof.Safety

/-- Settles O20: the data line is acquired, then the clock (`run_acquireClock`). -/
theorem initRunFresh : Obligations.InitRunFresh := by
  intro g s hg hs hl healthy
  have hcap : s.capDraws = .ok :: .ok :: .ok :: s.capDraws.drop 3 := healthy.capDraws
  rw [run_configureData hg hs hl hcap]
  refine Eq.trans (run_acquireClock hg rfl rfl) ?_
  simp [answered, zeroOf]

/-- Settles O21: the teardown (`run_initTeardown`), the data configure that closes it (`Scope.initReconstructs`), and the
rest of the acquisition (`run_acquireClock`). -/
theorem initRunAgain : Obligations.InitRunAgain := by
  intro g s r1 r2 rest hg hs hl ho hcap
  rw [run_add (run_initTeardown hg hs hl ho hcap) (b := 3)]
  refine Eq.trans (run_exec rfl (exec_reconfigureData hg hl rfl rfl)) ?_
  refine Eq.trans (run_acquireClock hg rfl rfl) ?_
  simp [drewCap, answered, zeroOf]

/-- Settles O22, by the primitive that fails: what was acquired before it decides the teardown at `fail`. -/
theorem initRunFails : Obligations.InitRunFails := by
  intro g s r1 r2 rest hg hs hl ho hlevel
  refine ⟨fun hcap => ?_, fun hcap => ?_, fun hcap => ?_⟩
  · have data := exec_configureData_err hg hs hl ho (nextCap_cons hcap)
    rw [drewCap_cons _ hcap, ← hl] at data
    exact run_exec hs data
  · rw [run_configureData hg hs hl hcap]
    refine Eq.trans (run_exec rfl (exec_configureClock_err hg rfl ⟨rfl, ho.2⟩ rfl)) ?_
    refine Eq.trans (run_failTear_data hg rfl ⟨rfl, ho.2⟩ rfl) ?_
    simp [drewCap, answered, zeroOf, hl, ho.1]
  · rw [run_configureData hg hs hl hcap]
    refine Eq.trans (run_exec rfl (exec_configureClock hg rfl rfl)) ?_
    refine Eq.trans (run_exec rfl (exec_driveLow_err hg rfl ⟨rfl, rfl⟩ rfl)) ?_
    refine Eq.trans (run_failTear_clock hg rfl ⟨rfl, rfl⟩ rfl) ?_
    simp [drewCap, answered, zeroOf, hl, ho.1, ho.2, hlevel]

/-- Settles O23: the two steps of RELEASE with both lines held (`Scope.releaseSteps`). -/
theorem releaseRun : Obligations.ReleaseRun := by
  intro s r1 r2 rest hs ho hcap
  obtain ⟨releases, -, -, -⟩ := Scope.releaseSteps s .start hs nofun
  have clock := releases ho
  rw [drewCap_cons _ hcap, nextCap_cons hcap] at clock
  refine Eq.trans (run_exec hs clock) ?_
  refine Eq.trans (run_exec rfl (exec_release_tear_data rfl ⟨ho.1, rfl⟩)) ?_
  simp [run_zero, drewCap, State.nextCap, answered, zeroOf]

end Sys2Proof.SessionRules

/-! PROOFS of the family 42_read: READ and SET_GAIN outside READY, a sample the saturation guard discards, a whole
SET_GAIN, and the frame of both commands. -/

namespace Sys2Proof.Machine

open Sys2Proof.Safety

/-! ### The life check (42_read R152, R162) -/

theorem whenReady_uninit {run : State → State} {s : State} (h : s.life = .uninit) :
    whenReady run s = s.answer .notInitialized := by
  rw [whenReady, h]

theorem whenReady_faulted {run : State → State} {s : State} (h : s.life = .faulted) :
    whenReady run s = s.answer .deviceFaulted := by
  rw [whenReady, h]

/-- At their start READ and SET_GAIN make the life check first. -/
theorem exec_whenReady {i : Instr} {s : State} (hi : RunsCycle i) (hw : i.WellFormed)
    (hs : s.seq = .busy (.instr i) .start) : ∃ run, exec i s = .next (whenReady run s) := by
  have point : s.seq.point = .start := congrArg Seq.point hs
  obtain rfl | ⟨g, rfl⟩ := hi
  · rw [exec_read, readStep, point]
    exact ⟨_, rfl⟩
  · rw [exec_setGain s (of_decide_eq_true hw), setGainStep, point]
    exact ⟨_, rfl⟩

/-! ### What a step of READ or SET_GAIN leaves unchanged (42_read R151, R161) -/

/-- Everything READ and SET_GAIN can do in a step, operand 0 included: an answer with no other effect, or a step of the
read cycle and what the command makes of it. -/
inductive AnswersOrCycles (i : Instr) (s : State) : State → Prop where
  | answers (st : Status) : AnswersOrCycles i s (s.answer st)
  | cycles {p : CyclePoint} {u t : State} (start : CycleFrom i s p u)
      (next : CycleThen i (cycleStep (cycleGain (.instr i) s) p u) t) : AnswersOrCycles i s t

theorem CycleCommandStep.answersOrCycles {i : Instr} {s t : State} (h : CycleCommandStep i s t) :
    AnswersOrCycles i s t := by
  cases h with
  | refused st => exact .answers st
  | cycle start next => exact .cycles start next

theorem exec_answersOrCycles {i : Instr} {s t : State} (hi : RunsCycle i) (h : exec i s = .next t) :
    AnswersOrCycles i s t := by
  obtain rfl | ⟨g, rfl⟩ := hi
  · obtain rfl := Host.Outcome.next.inj h
    exact (readStep_cycleCommandStep s).answersOrCycles
  · by_cases hg : g = 0#2
    · rw [exec, execSetGain, if_pos hg] at h
      obtain rfl := Host.Outcome.next.inj h
      exact .answers .invalidArgument
    · rw [exec_setGain s hg] at h
      obtain rfl := Host.Outcome.next.inj h
      exact (setGainStep_cycleCommandStep g s).answersOrCycles

/-- No instruction touches the waiting words, since none reads them. -/
theorem exec_pending {i : Instr} {s t : State} (h : exec i s = .next t) : t.pending = s.pending := by
  obtain ⟨f, hf, free⟩ := exec_pendingFree i
  obtain rfl := Host.Outcome.next.inj ((hf s).symm.trans h)
  have same := free s.pending s
  rw [State.withPending_self] at same
  rw [same, State.withPending_pending]

/-- Beginning a cycle stores no gain but the one the cycle is run with. -/
theorem CycleFrom.gain_or_cycleGain {i : Instr} {s u : State} {p : CyclePoint} (h : CycleFrom i s p u) :
    u.gain = s.gain ∨ u.gain = cycleGain (.instr i) s := by
  cases h with
  | point => exact .inl rfl
  | start => exact .inr rfl

theorem CycleFrom.nextCap {i : Instr} {s u : State} {p : CyclePoint} (h : CycleFrom i s p u) :
    u.nextCap = s.nextCap := by
  cases h <;> rfl

/-- From `s` to `t` the clock level is left, or the one event recorded is a clock write with the result drawn. -/
def ClockKeptOrWritten (s t : State) : Prop :=
  t.clockLevel = s.clockLevel ∨ ∃ v, t.trace = s.trace ++ [.wr v s.nextCap]

theorem clockKeptOrWritten_cycleStep (g : GainCode) (p : CyclePoint) (s : State) :
    ClockKeptOrWritten s (cycleStep g p s).2 := by
  have written {t : State} {r : CapResult} (v : Bool) (hc : s.nextCap = r) (ht : t.trace = s.trace ++ [.wr v r]) :
      ClockKeptOrWritten s t := .inr ⟨v, hc ▸ ht⟩
  refine cycleStep_rec (motive := fun r => ClockKeptOrWritten s r.2) g p s ?pollZero ?pollOne ?pollLimit ?readErr
    ?riseData ?sampleBit ?fallData ?fallLastData ?riseMode ?fallMode ?fallLast ?writeErr
  case pollZero | pollOne | pollLimit | readErr | sampleBit => intros; exact .inl rfl
  case riseData | riseMode => exact fun _ _ hc => written true hc rfl
  case fallData | fallLastData | fallMode | fallLast => exact fun _ _ hc _ => written false hc rfl
  case writeErr => exact fun v _ hc => written v hc rfl

/-- What stands around the step of the cycle in a command's step does not touch the lines. -/
theorem CycleFrom.clockKeptOrWritten {i : Instr} {s u t : State} {p : CyclePoint} {g : GainCode} (h : CycleFrom i s p u)
    (next : CycleThen i (cycleStep g p u) t) : ClockKeptOrWritten s t := by
  have made := clockKeptOrWritten_cycleStep g p u
  have before := h.lineView
  have after := next.lineView
  simp only [State.lineView, LineView.mk.injEq] at before after
  obtain ⟨trace, level, -, -⟩ := before
  obtain ⟨trace', level', -, -⟩ := after
  rwa [ClockKeptOrWritten, ← trace', ← level', trace, level, h.nextCap] at made

end Sys2Proof.Machine

namespace Sys2Proof.ReadRules

open Sys2Proof.Machine Sys2Proof.Safety

/-- Settles O34: the cycle completes (`run_cycle`), and READ takes up a new one for its sample is the sentinel. -/
theorem readRetryRun : Obligations.ReadRetryRun := by
  intro s k hs hl hg hlim hretry healthy ready sends
  have cycle := run_cycle (.inl rfl) rfl hs hl (g := s.gain) rfl hg hlim healthy ready sends
  exact cycle.trans (congrArg _ (readAfter_retry hretry rfl))

/-- Settles O35: the commit read is a whole cycle (`run_cycle`), after which SET_GAIN looks at no sample. -/
theorem setGainRun : Obligations.SetGainRun := by
  intro g s k raw hg hs hl hlim healthy ready sends
  exact run_cycle (.inr ⟨g, rfl⟩) (decide_eq_true hg) hs hl rfl hg hlim healthy ready sends

/-- Settles O60: a step only answers, or makes a step of the cycle, whose own frame the command leaves but for a fault's
life and READ's result (`exec_answersOrCycles`). -/
theorem readFrame : Obligations.ReadFrame := by
  intro i s t hi h
  have pending := exec_pending h
  cases exec_answersOrCycles hi h with
  | answers st =>
    exact ⟨rfl, rfl, pending, rfl, .inl rfl, fun _ => rfl, fun _ _ => ⟨rfl, .inl rfl⟩, .inl rfl⟩
  | cycles start next =>
    have keeps := start.keeps_cycleStep (cycleGain (.instr i) s)
    have gain : t.gain = s.gain ∨ t.gain = cycleGain (.instr i) s := by
      rw [next.gain, cycleStep_gain]
      exact start.gain_or_cycleGain
    refine ⟨(congrArg LineView.dataOwned next.lineView).trans keeps.dataOwned,
      (congrArg LineView.clockOwned next.lineView).trans keeps.clockOwned, pending, next.params.trans keeps.params,
      ?life, ?readGain, ?setGain, start.clockKeptOrWritten next⟩
    case life =>
      obtain ⟨-, rfl⟩ | ⟨life, -⟩ := next.faulted_or_keeps
      · exact .inr rfl
      · exact .inl (life.trans keeps.life)
    case readGain =>
      rintro rfl
      exact gain.elim id id
    case setGain =>
      rintro g rfl
      have result := next.readDone_or_result.resolve_left nofun
      exact ⟨result.trans keeps.result, gain⟩

/-- Settles O24: at its start the command makes the life check (`exec_whenReady`), which answers outside READY. -/
theorem outsideReady : Obligations.OutsideReady := by
  intro i s hi hs
  have runs : RunsCycle i := hi.imp_right fun ⟨g, _, e⟩ => ⟨g, e⟩
  have legal : i.WellFormed := by
    obtain rfl | ⟨g, hg, rfl⟩ := hi
    · rfl
    · exact decide_eq_true hg
  obtain ⟨run, checked⟩ := exec_whenReady runs legal hs
  exact ⟨fun hl => checked.trans (congrArg _ (whenReady_uninit hl)),
    fun hl => checked.trans (congrArg _ (whenReady_faulted hl))⟩

/-- Settles O30: the cycle is done (`exec_lastFall`), and READ takes up a new one. -/
theorem readRetries : Obligations.ReadRetries := by
  intro s j hs hj hc hretry hsentinel
  rw [exec_lastFall ⟨hs, .inl ⟨rfl, rfl⟩⟩ hc hj]
  exact congrArg _ (readAfter_retry hretry hsentinel)

end Sys2Proof.ReadRules

/-! PROOFS of the family 60_exceptions: the status codes, one response a command, the fault entry, which status each
command ends with, and what leaves FAULTED and UNINIT. -/

namespace Sys2Proof.Machine

open Sys2Proof.Safety

/-! ### A command runs alone and responds once (60_exceptions R207) -/

/-- The port after every step of a command in progress, whichever the command is. -/
theorem step_portAfter {s t : State} {c : Cmd} {p : Point} (hs : s.seq = .busy c p) (h : step s = .next t) :
    PortAfter c s t := by
  refine step_cases (motive := fun s t => ∀ c p, s.seq = .busy c p → PortAfter c s t)
    ?idle ?accept ?answered ?init ?release ?cycle s t h c p hs
  case idle => exact fun s hidle _ c p hs => nomatch hidle.symm.trans hs
  case accept => exact fun s w ws hidle _ c p hs => nomatch hidle.symm.trans hs
  case answered => exact fun s _ _ _ _ c p _ => .answers .invalidArgument rfl
  case init =>
    intro s g q hq _ c p hs
    obtain ⟨rfl, -⟩ := Seq.busy.inj (hq.symm.trans hs)
    exact portAfter_initStep g s
  case release =>
    intro s q hq c p hs
    obtain ⟨rfl, -⟩ := Seq.busy.inj (hq.symm.trans hs)
    exact portAfter_releaseStep s
  case cycle =>
    intro s i q t hq _ _ h c p hs
    obtain ⟨rfl, -⟩ := Seq.busy.inj (hq.symm.trans hs)
    exact h.portAfter

/-! ### The fault entry (60_exceptions R204) -/

theorem exec_of_faulted {i : Instr} {g : GainCode} {p : CyclePoint} {s u : State} (h : AtCycle i g p s)
    (hr : cycleStep g p s = (.faulted, u)) : exec i s = .next (raiseFaulted u) := by
  rw [exec_atCycle h, hr]
  obtain ⟨-, ⟨rfl, -⟩ | ⟨rfl, -⟩⟩ := h <;> rfl

theorem cycleStep_readErr {p : CyclePoint} {s : State} (g : GainCode) (hp : writesAt p = none)
    (hd : s.nextData = .err) : cycleStep g p s = (.faulted, afterRead .err s) := by
  cases p with
  | rw => exact readyPoll_err hd
  | ds k => exact sample_err _ hd
  | dh | dl | mh | ml => exact nomatch hp

theorem cycleStep_writeErr {p : CyclePoint} {v : Bool} {s : State} (g : GainCode) (hp : writesAt p = some v)
    (hc : s.nextCap = .err) : cycleStep g p s = (.faulted, afterWrite v .err s) := by
  cases p with
  | rw | ds => exact nomatch hp
  | dh | mh => obtain rfl := Option.some.inj hp; exact pulseRise_err _ hc
  | dl | ml => obtain rfl := Option.some.inj hp; exact pulseFall_err _ hc

theorem exec_readErr {i : Instr} {g : GainCode} {p : CyclePoint} {s : State} (h : AtCycle i g p s)
    (hp : writesAt p = none) (hd : s.nextData = .err) :
    exec i s = .next (answered .deviceFaulted (zeroOf s)
      { drewData .err s with life := .faulted, chipMode := .unknown }) := by
  rw [exec_of_faulted h (cycleStep_readErr g hp hd)]; rfl

theorem exec_writeErr {i : Instr} {g : GainCode} {p : CyclePoint} {v : Bool} {s : State} (h : AtCycle i g p s)
    (hp : writesAt p = some v) (hc : s.nextCap = .err) :
    exec i s = .next (answered .deviceFaulted (zeroOf s)
      { drewCap (.wr v .err) s with clockLevel := .unknown, life := .faulted, chipMode := .unknown }) := by
  rw [exec_of_faulted h (cycleStep_writeErr g hp hc)]; rfl

/-- A first poll that fails: the cycle has been begun (`begun`), counters and SET_GAIN's gain written, and faults. -/
theorem exec_firstPollErr {i : Instr} {s : State} (hi : RunsCycle i) (hw : i.WellFormed)
    (hs : s.seq = .busy (.instr i) .start) (hl : s.life = .ready) (hd : s.nextData = .err) :
    exec i s = .next (answered .deviceFaulted (zeroOf s)
      { drewData .err s with
        life := .faulted, chipMode := .unknown, polls := 0, n := 0, gain := cycleGain (.instr i) s }) :=
  (exec_start hi hw hs hl).trans (exec_readErr (atCycle_begun s hi hw) rfl hd)

/-- The clock at a point that reads: low at a ready poll, high at a sample. -/
theorem clockAt_of_read {p : CyclePoint} (hp : writesAt p = none) :
    clockAt p = if p = .rw then .low else .high := by
  cases p with
  | rw | ds => rfl
  | dh | dl | mh | ml => exact nomatch hp

/-! ### The status a command ends with (60_exceptions R220) -/

/-- The operand of an INIT in progress is legal, so its step is INIT's own. -/
theorem eq_initStep {g : GainCode} {s t : State} {p : Point} (hinv : LineInv s)
    (hs : s.seq = .busy (.instr (.init g)) p) (h : step s = .next t) : t = initStep g s := by
  have hg : g ≠ 0#2 := of_decide_eq_true (hinv.cmd _ _ hs)
  rw [step_busy hs, exec_init s hg] at h
  exact (Host.Outcome.next.inj h).symm

/-- What a command that has responded shows: the status, and the life state it leaves. -/
abbrev Ended (st : Status) (l : Life) (t : State) : Prop := t.rspStatus = st.code ∧ t.life = l

theorem initFail_ends {i : Instr} {u : State} :
    (initFail i u).seq = .idle → Ended .pinInitError .uninit (initFail i u) :=
  initFail_rec (motive := fun t => t.seq = .idle → Ended .pinInitError .uninit t) i u
    (fun _ _ hidle => nomatch hidle) (fun _ _ _ => ⟨rfl, rfl⟩)

theorem initTorn_seq (i : Instr) (u : State) : (initTorn i u).seq ≠ .idle :=
  initTorn_rec (motive := fun t => t.seq ≠ .idle) i u (fun _ _ => nofun) (fun _ _ => nofun)

/-- INIT responds in its last step, or once a teardown at `fail` has released the lines. -/
theorem initStep_ends (g : GainCode) (s : State) :
    (initStep g s).seq = .idle → Ended .ok .ready (initStep g s) ∨ Ended .pinInitError .uninit (initStep g s) := by
  refine initStep_rec (motive := fun t => t.seq = .idle → Ended .ok .ready t ∨ Ended .pinInitError .uninit t) g s
    ?tearFirst ?tear ?dataOk ?dataErr ?clockOk ?clockErr ?lowOk ?lowErr ?failTear
  case tearFirst | tear => intros; exact absurd ‹_› (initTorn_seq _ _)
  case dataOk => exact fun _ _ _ _ hidle => nomatch hidle
  case clockOk => exact fun _ _ hidle => nomatch hidle
  case lowOk => exact fun _ _ _ => .inl ⟨rfl, rfl⟩
  case dataErr => exact fun _ _ _ _ hidle => .inr (initFail_ends hidle)
  case clockErr | lowErr | failTear => exact fun _ _ hidle => .inr (initFail_ends hidle)

/-- RELEASE responds once it has released the lines. -/
theorem releaseStep_ends (s : State) : (releaseStep s).seq = .idle → Ended .ok .uninit (releaseStep s) :=
  have torn (u : State) : (releaseTorn u).seq = .idle → Ended .ok .uninit (releaseTorn u) :=
    releaseTorn_rec (motive := fun t => t.seq = .idle → Ended .ok .uninit t) u
      (fun _ _ hidle => nomatch hidle) (fun _ _ _ => ⟨rfl, rfl⟩)
  releaseStep_rec (motive := fun t => t.seq = .idle → Ended .ok .uninit t) s
    (fun _ _ => torn _) (fun _ _ => torn _) (fun _ _ _ => torn _) (fun _ _ _ _ => ⟨rfl, rfl⟩)

/-- Only a poll limit lets a cycle time out (60_exceptions R205). -/
theorem cycleStep_timeout {g : GainCode} {p : CyclePoint} {s : State} (h : (cycleStep g p s).1 = .timeout) :
    s.params.readyPollLimit ≠ none := by
  revert h
  refine cycleStep_rec (motive := fun r => r.1 = .timeout → s.params.readyPollLimit ≠ none) g p s ?pollZero ?pollOne
    ?pollLimit ?readErr ?riseData ?sampleBit ?fallData ?fallLastData ?riseMode ?fallMode ?fallLast ?writeErr
  case pollLimit => exact fun l _ _ hl _ _ => by simp [hl]
  case readErr | pollZero => exact fun _ _ he => nomatch he
  case pollOne | riseData | riseMode | writeErr => exact fun _ _ _ he => nomatch he
  case sampleBit | fallData | fallLastData | fallMode | fallLast => exact fun _ _ _ _ he => nomatch he

/-- A step of READ or SET_GAIN, by the life state it is made in: only in READY is it a step of the read cycle
(60_exceptions R206, R208). -/
inductive CycleStepByLife (i : Instr) (s : State) : State → Prop where
  | notInit (life : s.life = .uninit) : CycleStepByLife i s (s.answer .notInitialized)
  | faulted (life : s.life = .faulted) : CycleStepByLife i s (s.answer .deviceFaulted)
  | cycle {p : CyclePoint} {u t : State} (life : s.life = .ready) (start : CycleFrom i s p u)
      (next : CycleThen i (cycleStep (cycleGain (.instr i) s) p u) t) : CycleStepByLife i s t

theorem step_cycleStepByLife {i : Instr} {s t : State} {q : Point} (hinv : LineInv s)
    (hs : s.seq = .busy (.instr i) q) (hi : RunsCycle i) (h : step s = .next t) : CycleStepByLife i s t := by
  rw [step_busy hs] at h
  have ready {p : CyclePoint} (hp : s.seq.point = .cyc p) : s.life = .ready := by
    obtain ⟨-, hl, -⟩ := lines_of_point hinv hs hp
    exact hl
  obtain rfl | ⟨g, rfl⟩ := hi
  · obtain rfl := Host.Outcome.next.inj h
    exact readStep_rec (motive := CycleStepByLife .read s) s
      (cycle := fun p hp => .cycle (ready hp) (.point p hp) (readAfter_cycleThen _))
      (notInit := fun _ => .notInit)
      (faulted := fun _ => .faulted)
      (begins := fun hp hl => .cycle hl (.start hp hl) (readAfter_cycleThen _))
  · have hg : g ≠ 0#2 := of_decide_eq_true (hinv.cmd _ _ hs)
    rw [exec_setGain s hg] at h
    obtain rfl := Host.Outcome.next.inj h
    exact setGainStep_rec (motive := CycleStepByLife (.setGain g) s) g s
      (cycle := fun p hp => .cycle (ready hp) (.point p hp) (setGainAfter_cycleThen g _))
      (notInit := fun _ => .notInit)
      (faulted := fun _ => .faulted)
      (begins := fun hp hl => .cycle hl (.start hp hl) (setGainAfter_cycleThen g _))

/-- How READ and SET_GAIN end: the status, and life before and after. -/
theorem CycleStepByLife.ends {i : Instr} {s t : State} (h : CycleStepByLife i s t) (hidle : t.seq = .idle) :
    (t.rspStatus = Status.notInitialized.code ∧ s.life = .uninit ∧ t.life = .uninit) ∨
    (t.rspStatus = Status.deviceFaulted.code ∧ s.life ≠ .uninit ∧ t.life = .faulted) ∨
    (t.rspStatus = Status.timeout.code ∧ s.params.readyPollLimit ≠ none ∧ s.life = .ready ∧ t.life = .ready) ∨
    (t.rspStatus = Status.ok.code ∧ s.life = .ready ∧ t.life = .ready) := by
  cases h with
  | notInit hl => exact .inl ⟨rfl, hl, hl⟩
  | faulted hl => exact .inr (.inl ⟨rfl, by simp [hl], hl⟩)
  | cycle hl start next =>
    have after := (start.keeps_cycleStep (cycleGain (.instr i) s)).life.trans hl
    cases next with
    | cont | retry => exact nomatch hidle
    | timeout he => exact .inr (.inr (.inl ⟨rfl, start.keeps.params ▸ cycleStep_timeout he, hl, after⟩))
    | faulted => exact .inr (.inl ⟨rfl, by simp [hl], rfl⟩)
    | read | commit => exact .inr (.inr (.inr ⟨rfl, hl, after⟩))

end Sys2Proof.Machine

namespace Sys2Proof.ExceptionRules

open Sys2Proof.Machine Sys2Proof.Safety

/-- Settles O5: the codes by the definition, and by cases none is 6 or 7. -/
theorem statusCodes : Obligations.StatusCodes := by
  refine ⟨rfl, rfl, rfl, rfl, rfl, rfl, fun st => ?_⟩
  cases st <;> decide

/-- Settles O11: the command goes on and leaves the port, or answers (`step_portAfter`). -/
theorem commandRunsAlone : Obligations.CommandRunsAlone := by
  intro s t c p hs h
  cases step_portAfter hs h with
  | goesOn q seq port =>
    simp only [State.port, Port.mk.injEq] at port
    obtain ⟨-, -, responses, valid, status, value⟩ := port
    exact .inl ⟨q, seq, responses, valid, status, value⟩
  | @answers u st port =>
    have before : u.responses = s.responses := congrArg Port.responses port
    exact .inr ⟨rfl, st, PortVal.zero u.params.w, congrArg (· ++ _) before, rfl, rfl, rfl⟩
  | @reads u port =>
    have before : u.responses = s.responses := congrArg Port.responses port
    exact .inr ⟨rfl, .ok, signExtend u.params.w u.acc, congrArg (· ++ _) before, rfl, rfl, rfl⟩

/-- Settles O32: a failed primitive faults its cycle (`exec_readErr`, `exec_writeErr`), the first poll as any other
(`exec_firstPollErr`); a failed read leaves the clock as the invariant has it at the point. -/
theorem faultEntry : Obligations.FaultEntry := by
  refine ⟨fun s hl hd => ⟨?firstRead, ?firstSetGain⟩, fun i g p s h => ⟨exec_readErr h, fun v => exec_writeErr h⟩,
    fun s hinv hd => ⟨?firstPollLines, ?cycleLines⟩⟩
  case firstRead => exact fun hs => exec_firstPollErr (.inl rfl) rfl hs hl hd
  case firstSetGain => exact fun g hg hs => exec_firstPollErr (.inr ⟨g, rfl⟩) (decide_eq_true hg) hs hl hd
  case firstPollLines =>
    intro i hi hs hl
    obtain ⟨-, rest⟩ := hinv.lines _ _ hs
    obtain ⟨owned, low⟩ := owns_of_ready rest hl
    exact ⟨_, exec_firstPollErr hi (hinv.cmd _ _ hs) hs hl hd, rfl, low, owned⟩
  case cycleLines =>
    intro i g p h hp
    obtain ⟨-, -, owned, level⟩ := hinv.lines _ _ h.1
    exact ⟨_, exec_readErr h hp hd, rfl, level.trans (clockAt_of_read hp), owned⟩

/-- Settles O49, command by command: `initStep_ends`, `releaseStep_ends`, and for READ and SET_GAIN by the life state
their step is made in (`step_cycleStepByLife`). -/
theorem responseTable : Obligations.ResponseTable := by
  intro s t c p hinv hs h hidle
  obtain (g | _ | g | _) | r := c
  case instr.init =>
    obtain rfl := eq_initStep hinv hs h
    exact initStep_ends g s hidle
  case instr.read => exact (step_cycleStepByLife hinv hs (.inl rfl) h).ends hidle
  case instr.setGain => exact (step_cycleStepByLife hinv hs (.inr ⟨g, rfl⟩) h).ends hidle
  case instr.release =>
    rw [step_busy hs, exec_release] at h
    obtain rfl := Host.Outcome.next.inj h
    exact releaseStep_ends s hidle
  case reserved =>
    rw [step_reserved hs] at h
    obtain rfl := Host.Outcome.next.inj h
    exact ⟨rfl, rfl⟩

/-- Settles O51 by what writes life (`lifeWriters`): READ and SET_GAIN only fault, and not out of UNINIT
(`step_cycleStepByLife`); INIT's last step makes life READY, and every other keeps life or makes it UNINIT
(`initStep_done_or_keeps`). -/
theorem recovery : Obligations.Recovery := by
  intro s t hinv h
  have writers := StateRules.lifeWriters s t h
  refine ⟨fun hl hne => ?leavesFaulted, fun hl hne => ?leavesUninit⟩
  case leavesFaulted =>
    obtain ⟨g, p, hs, -⟩ | ⟨p, hs, hu, -⟩ | ⟨i, p, -, -, hf, -⟩ := writers (hl ▸ hne)
    · exact .inl ⟨g, p, hs⟩
    · exact .inr ⟨p, hs, hu⟩
    · exact absurd hf hne
  case leavesUninit =>
    obtain ⟨g, p, hs, -⟩ | ⟨p, -, hu, -⟩ | ⟨i, p, hs, hi, -⟩ := writers (hl ▸ hne)
    · obtain rfl := eq_initStep hinv hs h
      obtain ⟨hp, hdone⟩ | keeps := initStep_done_or_keeps g s
      · obtain rfl := eq_of_seq_point hs hp
        exact ⟨g, hs, hdone ▸ ⟨rfl, rfl, rfl⟩⟩
      · obtain ⟨same, -⟩ | ⟨hu, -⟩ := keeps.session
        · exact absurd (same.trans hl) hne
        · exact absurd hu hne
    · exact absurd hu hne
    · cases step_cycleStepByLife hinv hs hi h with
      | notInit => exact absurd hl hne
      | faulted hl' | cycle hl' => exact nomatch hl.symm.trans hl'

end Sys2Proof.ExceptionRules

/-! PROOFS of the family 70_reset_and_hazards: every field and port at reset, and the four invariants there. -/

namespace Sys2Proof.Machine

open Sys2Proof.Safety

/-! ### The reset state (70_reset_and_hazards R230, R231) -/

theorem resetWith_seq (p : Params) : (State.resetWith p).seq = .idle := rfl

/-- Reset stands in no command (70_reset_and_hazards R231), whichever one `OffCycle` is asked of. -/
theorem offCycle_resetWith (p : Params) : OffCycle (.instr .release) (State.resetWith p) := .inl (resetWith_seq p)

/-- The gain register names the mode of its code 1, and no pulse is made. -/
theorem pulseInv_resetWith (p : Params) : PulseInv (State.resetWith p) :=
  pulseInv_of_offCycle (offCycle_resetWith p) rfl (show 1#2 ≠ 0#2 by decide) (Nat.zero_le 27)

theorem accInv_resetWith (p : Params) : AccInv (State.resetWith p) := accInv_of_offCycle (offCycle_resetWith p)

/-- Reset is UNINIT at rest: no line is held, the clock is undriven and the chip's mode is not known. -/
theorem lineInv_resetWith (p : Params) : LineInv (State.resetWith p) :=
  lineInv_of_idle (resetWith_seq p) (undriven := fun _ => rfl) (chip := fun _ => rfl) (rest := ⟨rfl, rfl⟩)

/-- No response has been made: the port is all 0, in the width of the parameters. -/
theorem responseInv_resetWith (p : Params) : ResponseInv (State.resetWith p) where
  width := rfl
  history := List.forall_mem_nil _
  busy := fun _ => rfl
  port := ⟨rfl, rfl, rfl⟩

end Sys2Proof.Machine

namespace Sys2Proof.ResetRules

open Sys2Proof.Machine Sys2Proof.Safety

/-- Settles O6: every field is the one `State.resetWith` gives, and `cmd_ready` is 1 for `seq` is IDLE. -/
theorem resetState : Obligations.ResetState := by
  intro p s
  have ready : s.cmdReady = true := decide_eq_true (resetWith_seq p)
  exact ⟨rfl, rfl, rfl, rfl, rfl, rfl, rfl, rfl, resetWith_seq p, rfl, rfl, rfl, rfl, ready, rfl, rfl, rfl, rfl⟩

/-- Settles O46, invariant by invariant: reset is at rest, so each asks only for the reset values of a few fields. -/
theorem invariantsAtReset : Obligations.InvariantsAtReset :=
  fun p => ⟨pulseInv_resetWith p, accInv_resetWith p, lineInv_resetWith p, responseInv_resetWith p⟩

end Sys2Proof.ResetRules
